-- ==== Sys2Proof/Word.lean ====
section
/-! DEFINITION. The widths the spec gives the machine's words: registers are 32 bits, buffer elements and field elements
8 bits, host addresses 16 bits, matrix cells 3 bits (00_scope.md rule R6). -/

namespace Sys2Proof

/-- A buffer element, a codeword, an element of GF(256) (rules R6, R160). -/
abbrev Byte := BitVec 8

/-- A register, a command word, the data of a 32-bit bus access (rules R6, R61, R100). -/
abbrev Word := BitVec 32

/-- A byte address of the host address space, 0x0000..0xFFFF (rule R60). -/
abbrev Addr := BitVec 16

/-- The content of one matrix cell, a 3-bit ModuleColor code; the host can store the codes 6 and 7 too (rules R49, R104). -/
abbrev CellCode := BitVec 3

end Sys2Proof
end

