-- ==== Sys2Proof/Config.lean ====
section
/-! DEFINITION. What an implementation fixes (00_scope.md rule R4) and the free values: the sizes of the buffers, the type
of the reference data REFDATA and of the parameter P3_SECOND, and one uninterpreted constant for each value the spec
leaves unspecified (93_implementation_defined.md U4 to U7). -/

namespace Sys2Proof.Config

/-- MSG_CAP, the bytes of the MSG buffer (rules R4, R44). -/
def msgCap : Nat := 7089
/-- DCW_CAP, the bytes of the DCW buffer (rules R4, R45). -/
def dcwCap : Nat := 2956
/-- STREAM_CAP, the bytes of the STREAM buffer (rules R4, R46). -/
def streamCap : Nat := 3707
/-- The bytes of the RSBUF buffer (rules R4, R47). -/
def rsbufCap : Nat := 256
/-- The bytes of the RSEC buffer (rules R4, R48). -/
def rsecCap : Nat := 32
/-- MAX_EC, the largest degree of a generator polynomial (rule R4). -/
def maxEc : Nat := 30
/-- NMAX, the side of the MATRIX array and its row stride (rules R4, R49). -/
def nMax : Nat := 177

/-- FREE VALUE (rule R290: 'unspecified (a draw per byte)'): what a buffer byte holds after the reset number `epoch` until
it is written; `addr` is the byte's host address. A matrix cell takes the low three bits. No body: nothing is known of it. -/
opaque bufferDraw (epoch addr : Nat) : BitVec 8

/-- FREE VALUE (rule R297): what the n-th read that rule R297 calls unspecified returns. -/
opaque busyReadDraw (n : Nat) : BitVec 32

/-- FREE VALUE (rule R161, U4): the discrete logarithm of 0, which no rule looks up. -/
opaque logOfZero : Nat

/-- ErrorCorrectionLevel, the field CFG.LEVEL (rules R33, R105). -/
inductive Level where
  | low
  | medium
  | quartile
  | high
  deriving DecidableEq, Repr

/-- EncodingMode, the field CFG.MODE (rules R33, R105); the block rejects Kanji. -/
inductive Mode where
  | numeric
  | alphanumeric
  | byte
  | kanji
  deriving DecidableEq, Repr

/-- The modes PACK packs (rule R2). -/
inductive PackMode where
  | numeric
  | alphanumeric
  | byte
  deriving DecidableEq, Repr

/-- Version tier (00_scope.md section 5, rule R133). -/
inductive Tier where
  | tier0
  | tier1
  | tier2
  deriving DecidableEq, Repr

/-- The codeword plan of one (level, version): group 1 has `n1` blocks of `k1` data codewords, group 2 `n2` of `k2`, and
every block gets `ec` EC codewords (00_scope.md section 5, rule R75). -/
structure Plan where
  n1 : Nat
  k1 : Nat
  n2 : Nat
  k2 : Nat
  ec : Nat
  deriving DecidableEq, Repr

/-- One value for each of the three modes the block packs (rule R2). -/
structure PerMode (α : Type) where
  numeric : α
  alphanumeric : α
  byte : α
  deriving DecidableEq, Repr

/-- One value for each version tier: versions 1-9, 10-26, 27-40 (rule R81). -/
structure PerTier (α : Type) where
  tier0 : α
  tier1 : α
  tier2 : α
  deriving DecidableEq, Repr

/-- One value for each error-correction level (rule R105). -/
structure PerLevel (α : Type) where
  low : α
  medium : α
  quartile : α
  high : α
  deriving DecidableEq, Repr

/-- REFDATA, the open part of the Reference Data Service (rule R75); the lists over versions hold version 1 first. -/
structure RefData where
  plans          : PerLevel (List Plan)
  remainderBits  : List (Fin 8)
  alignmentPairs : List (List (Nat × Nat))
  modeIndicator  : PerMode (BitVec 4)
  ccWidth        : PerMode (PerTier Nat)
  alnum          : List (Byte × Fin 45)
  deriving DecidableEq, Repr

/-- P3_SECOND, the second pattern of penalty rule 3 (rules R4, R225; 90_conflicts.md C1). -/
inductive P3Second where
  | complement
  | reverse
  deriving DecidableEq, Repr

/-- The implementation parameters a model takes (rule R4): fixed for the life of a machine. -/
structure Params where
  refdata  : RefData
  p3Second : P3Second
  deriving DecidableEq, Repr

end Sys2Proof.Config
end

