-- ==== Sys2Proof/Syntax.lean ====
section
/-! DEFINITION. The commands (the block's 'instructions', rule R1), one constructor per row of spec/opcode_table.json, and
the host's bus accesses (rule R61), which are how commands and inputs reach the block. -/

namespace Sys2Proof

/-- A command (30_encoding.md rule R110). An argument is the 8-bit unsigned ARG field (rule R102). -/
inductive Instr where
  | nop
  | clear
  | pack
  | genpoly (n : Byte)
  | rsenc (n : Byte)
  | interleave
  | funcpat
  | place
  | penalty (m : Byte)
  | masksel
  | maskapply (m : Byte)
  | run
  deriving DecidableEq, Repr

/-- The four kinds of host access, `MemRead(a, 1)`, `MemRead(a, 4)`, `MemWrite(a, 1, v)`, `MemWrite(a, 4, v)` (rule R61). -/
inductive Access where
  | read8 (a : Addr)
  | read32 (a : Addr)
  | write8 (a : Addr) (v : Byte)
  | write32 (a : Addr) (v : Word)
  deriving DecidableEq, Repr

end Sys2Proof
end

