-- ==== Sys2Proof/WellFormed.lean ====
section
/-! DEFINITION. Which commands are well formed: the ranges of the ARG field (30_encoding.md rules R102, R111 item (4)). The
condition RS_K + n ≤ 255 of RSENC (R111 item (5)) reads a register, so RSENC's meaning checks it. -/

namespace Sys2Proof

/-- GENPOLY and RSENC: n is in 1..30 (rule R102). -/
def ecCountLegal (n : Byte) : Bool := decide (1 ≤ n.toNat ∧ n.toNat ≤ Config.maxEc)

/-- PENALTY: m is a mask index 0..7, or 0xFF for the matrix as it is (rule R102). -/
def penaltyArgLegal (m : Byte) : Bool := decide (m.toNat ≤ 7 ∨ m = 0xFF)

/-- MASKAPPLY: m is a mask index 0..7 (rule R102). -/
def maskIndexLegal (m : Byte) : Bool := decide (m.toNat ≤ 7)

/-- A command whose argument is in the range rule R102 gives it. -/
def Instr.wf : Instr → Bool
  | .nop => true
  | .clear => true
  | .pack => true
  | .genpoly n => ecCountLegal n
  | .rsenc n => ecCountLegal n
  | .interleave => true
  | .funcpat => true
  | .place => true
  | .penalty m => penaltyArgLegal m
  | .masksel => true
  | .maskapply m => maskIndexLegal m
  | .run => true

end Sys2Proof
end

