-- ==== Sys2Proof/Decode.lean ====
section
/-! DEFINITION. The command word (30_encoding.md rules R100 to R113): decoding, total on all 2^32 words and rejecting by
name, then the encoder written from the same table (rule R110). -/

namespace Sys2Proof

/-- OP = w[7:0] (rules R100, R101). -/
def opField (w : Word) : Byte := w.extractLsb' 0 8
/-- ARG = w[15:8] (rules R100, R102). -/
def argField (w : Word) : Byte := w.extractLsb' 8 8
/-- RSV = w[31:16] (rules R100, R103). -/
def rsvField (w : Word) : BitVec 16 := w.extractLsb' 16 16

/-- Why a command word is illegal whatever the registers hold: rule R111 items (1) to (4), in its order. -/
inductive IllegalWord where
  /-- OP is not in rule R110's table. -/
  | unassignedOpcode
  /-- RSV ≠ 0. -/
  | reservedNonzero
  /-- The command takes no argument and ARG ≠ 0. -/
  | argumentNotZero
  /-- ARG is outside the command's range. -/
  | argumentOutOfRange
  deriving DecidableEq, Repr

/-- The INFO value of E_ILLEGAL for each reason (rules R111, R262). -/
def IllegalWord.info : IllegalWord → BitVec 16
  | .unassignedOpcode => 0
  | .reservedNonzero => 1
  | .argumentNotZero => 2
  | .argumentOutOfRange => 3

/-- The twelve assigned opcodes (rule R110). -/
inductive Opcode where
  | nop | clear | pack | genpoly | rsenc | interleave | funcpat | place | penalty | masksel | maskapply | run
  deriving DecidableEq, Repr

/-- The OP column of rule R110. -/
def Opcode.code : Opcode → Byte
  | .nop => 0x00
  | .clear => 0x01
  | .pack => 0x10
  | .genpoly => 0x20
  | .rsenc => 0x21
  | .interleave => 0x22
  | .funcpat => 0x30
  | .place => 0x31
  | .penalty => 0x40
  | .masksel => 0x41
  | .maskapply => 0x42
  | .run => 0xF0

/-- The opcode an OP field selects; the other 244 values select none (rules R101, R110). -/
def Opcode.ofCode (op : Byte) : Option Opcode :=
  if op = 0x00 then some .nop
  else if op = 0x01 then some .clear
  else if op = 0x10 then some .pack
  else if op = 0x20 then some .genpoly
  else if op = 0x21 then some .rsenc
  else if op = 0x22 then some .interleave
  else if op = 0x30 then some .funcpat
  else if op = 0x31 then some .place
  else if op = 0x40 then some .penalty
  else if op = 0x41 then some .masksel
  else if op = 0x42 then some .maskapply
  else if op = 0xF0 then some .run
  else none

/-- Whether the command takes an argument (rule R102). -/
def Opcode.takesArg : Opcode → Bool
  | .genpoly => true
  | .rsenc => true
  | .penalty => true
  | .maskapply => true
  | .nop => false
  | .clear => false
  | .pack => false
  | .interleave => false
  | .funcpat => false
  | .place => false
  | .masksel => false
  | .run => false

/-- The command an opcode and an argument make; a command without argument drops it (it is 0 when decoded). -/
def Opcode.instr : Opcode → Byte → Instr
  | .nop, _ => .nop
  | .clear, _ => .clear
  | .pack, _ => .pack
  | .genpoly, a => .genpoly a
  | .rsenc, a => .rsenc a
  | .interleave, _ => .interleave
  | .funcpat, _ => .funcpat
  | .place, _ => .place
  | .penalty, a => .penalty a
  | .masksel, _ => .masksel
  | .maskapply, a => .maskapply a
  | .run, _ => .run

/-- The command a word is, or why it is illegal, checked in the order of rule R111. -/
def decode (w : Word) : Except IllegalWord Instr :=
  match Opcode.ofCode (opField w) with
  | none => .error .unassignedOpcode
  | some op =>
    if rsvField w ≠ 0 then .error .reservedNonzero
    else if op.takesArg = false ∧ argField w ≠ 0 then .error .argumentNotZero
    else if (op.instr (argField w)).wf = false then .error .argumentOutOfRange
    else .ok (op.instr (argField w))

/-- The opcode of a command (rule R110). -/
def Instr.opcode : Instr → Opcode
  | .nop => .nop
  | .clear => .clear
  | .pack => .pack
  | .genpoly _ => .genpoly
  | .rsenc _ => .rsenc
  | .interleave => .interleave
  | .funcpat => .funcpat
  | .place => .place
  | .penalty _ => .penalty
  | .masksel => .masksel
  | .maskapply _ => .maskapply
  | .run => .run

/-- The ARG field of a command, 0 for a command without argument (rule R102). -/
def Instr.arg : Instr → Byte
  | .nop => 0
  | .clear => 0
  | .pack => 0
  | .genpoly n => n
  | .rsenc n => n
  | .interleave => 0
  | .funcpat => 0
  | .place => 0
  | .penalty m => m
  | .masksel => 0
  | .maskapply m => m
  | .run => 0

/-- The word of a command: RSV = 0, then ARG, then OP (rules R100, R110). -/
def encode (i : Instr) : Word := (0#16 ++ i.arg) ++ i.opcode.code

/-- The instruction the decoder reads from the low `nbits` bits of `w`, numbered as spec/opcode_table.json numbers them (a
command is one 32-bit word, rule R113; bits above `nbits` are 0). -/
def decodeTableWord (nbits w : Nat) : Option Instr :=
  match decode (BitVec.ofNat 32 (w % 2 ^ nbits)) with
  | .ok i => some i
  | .error _ => none

end Sys2Proof
end

