-- ==== Sys2Proof/Machine/RefData.lean ====
section
/-! DEFINITION. REFDATA (20_memory.md section 4): the lookups of rule R75 on any REFDATA, the default content of rules R76 to
R83, the fixed pad bytes (R84) and the well-formedness conditions the commands check (R86). The GF(256) tables of rule R85
stand in Machine/Galois.lean. -/

namespace Sys2Proof.Machine

open Sys2Proof.Config

/-! ### The lookups (rule R75) -/

def pickLevel {α : Type} (t : PerLevel α) : Level → α
  | .low => t.low
  | .medium => t.medium
  | .quartile => t.quartile
  | .high => t.high

def pickMode {α : Type} (t : PerMode α) : PackMode → α
  | .numeric => t.numeric
  | .alphanumeric => t.alphanumeric
  | .byte => t.byte

def pickTier {α : Type} (t : PerTier α) : Tier → α
  | .tier0 => t.tier0
  | .tier1 => t.tier1
  | .tier2 => t.tier2

/-- `tier(v)` (rule R133): 0 for versions 1-9, 1 for 10-26, 2 for 27-40. -/
def tierOf (v : Nat) : Tier :=
  if v ≤ 9 then .tier0 else if v ≤ 26 then .tier1 else .tier2

/-- The plan read where a table has no entry; it fails `planOk`, so PACK and INTERLEAVE report it as malformed (E_REFDATA). -/
def absentPlan : Plan := ⟨0, 0, 0, 0, 0⟩

/-- `REF.plan(level, v)`. -/
def refPlan (ref : RefData) (level : Level) (v : Nat) : Plan :=
  (pickLevel ref.plans level).getD (v - 1) absentPlan

/-- `REF.remainderBits(v)`, 0..7. -/
def refRemainderBits (ref : RefData) (v : Nat) : Nat :=
  (ref.remainderBits.getD (v - 1) 0).val

/-- `REF.alignmentPairs(v)`, centre pairs (row, column) in list order. -/
def refAlignmentPairs (ref : RefData) (v : Nat) : List (Nat × Nat) :=
  ref.alignmentPairs.getD (v - 1) []

/-- `REF.modeIndicator(mode)`, a 4-bit code. -/
def refModeIndicator (ref : RefData) (mode : PackMode) : BitVec 4 :=
  pickMode ref.modeIndicator mode

/-- `REF.ccWidth(mode, tier)`, the width in bits of the character count indicator. -/
def refCcWidth (ref : RefData) (mode : PackMode) (tier : Tier) : Nat :=
  pickTier (pickMode ref.ccWidth mode) tier

/-- The value a list of (byte, value) pairs gives a byte. -/
def alnumLookup : List (Byte × Fin 45) → Byte → Option (Fin 45)
  | [], _ => none
  | (c, x) :: rest, b => if c = b then some x else alnumLookup rest b

/-- `REF.alnumValue(byte)`, 0..44 or none. -/
def refAlnumValue (ref : RefData) (b : Byte) : Option (Fin 45) :=
  alnumLookup ref.alnum b

/-- `REF.padBytes()` = (0xEC, 0x11), fixed by the source (rule R84). -/
def padByte (j : Nat) : Byte := if j % 2 = 0 then 0xEC else 0x11

/-! ### The derived quantities of a plan -/

/-- D = n1·k1 + n2·k2, the total data codewords (rule R75). -/
def planData (p : Plan) : Nat := p.n1 * p.k1 + p.n2 * p.k2

/-- B = n1 + n2, the number of blocks (rule R180). -/
def planBlocks (p : Plan) : Nat := p.n1 + p.n2

/-- 8·(D + ec·B) + rem, the length of the interleaved stream in bits (rules R180, R185). -/
def streamLength (p : Plan) (rem : Nat) : Nat :=
  8 * (planData p + p.ec * planBlocks p) + rem

/-- planOK: rule R86 items (1) to (3). -/
def planOk (p : Plan) : Bool :=
  decide (1 ≤ p.n1) && decide (1 ≤ p.k1) && (decide (p.n2 = 0) == decide (p.k2 = 0)) &&
    decide (1 ≤ p.ec) && decide (p.ec ≤ maxEc) && decide (planData p ≤ dcwCap) &&
    decide (p.k2 + p.ec ≤ 255) && decide (p.k1 + p.ec ≤ 255)

/-- N(v) = 4·v + 17, the side of the symbol (rule R4). -/
def sideOf (v : Nat) : Nat := 4 * v + 17

/-- Rule R86 item (4): a centre whose 5×5 pattern stays inside the grid of side n. -/
def centreOk (n : Nat) (p : Nat × Nat) : Bool :=
  decide (2 ≤ p.1) && decide (2 ≤ p.2) && decide (p.1 ≤ n - 3) && decide (p.2 ≤ n - 3)

/-! ### The default content -/

/-- EC codewords per block for versions 1..40 (rule R76, first table). -/
def ecTable : Level → List Nat
  | .low =>
    ([7, 10, 15, 20, 26, 18, 20, 24, 30, 18, 20, 24, 26, 30, 22, 24, 28, 30, 28, 28] ++
     [28, 28, 30, 30, 26, 28, 30, 30, 30, 30, 30, 30, 30, 30, 30, 30, 30, 30, 30, 30])
  | .medium =>
    ([10, 16, 26, 18, 24, 16, 18, 22, 22, 26, 30, 22, 22, 24, 24, 28, 28, 26, 26, 26] ++
     [26, 28, 28, 28, 28, 28, 28, 28, 28, 28, 28, 28, 28, 28, 28, 28, 28, 28, 28, 28])
  | .quartile =>
    ([13, 22, 18, 26, 18, 24, 18, 22, 20, 24, 28, 26, 24, 20, 30, 24, 28, 28, 26, 30] ++
     [28, 30, 30, 30, 30, 28, 30, 30, 30, 30, 30, 30, 30, 30, 30, 30, 30, 30, 30, 30])
  | .high =>
    ([17, 28, 22, 16, 22, 28, 26, 26, 24, 28, 24, 28, 22, 24, 24, 30, 28, 28, 26, 28] ++
     [30, 24, 30, 30, 30, 30, 30, 30, 30, 30, 30, 30, 30, 30, 30, 30, 30, 30, 30, 30])

/-- Block counts for versions 1..40 (rule R76, second table). -/
def blockTable : Level → List Nat
  | .low =>
    ([1, 1, 1, 1, 1, 2, 2, 2, 2, 4, 4, 4, 4, 4, 6, 6, 6, 6, 7, 8] ++
     [8, 9, 9, 10, 12, 12, 12, 13, 14, 15, 16, 17, 18, 19, 19, 20, 21, 22, 24, 25])
  | .medium =>
    ([1, 1, 1, 2, 2, 4, 4, 4, 5, 5, 5, 8, 9, 9, 10, 10, 11, 13, 14, 16] ++
     [17, 17, 18, 20, 21, 23, 25, 26, 28, 29, 31, 33, 35, 37, 38, 40, 43, 45, 47, 49])
  | .quartile =>
    ([1, 1, 2, 2, 4, 4, 6, 6, 8, 8, 8, 10, 12, 16, 12, 17, 16, 18, 21, 20] ++
     [23, 23, 25, 27, 29, 34, 34, 35, 38, 40, 43, 45, 48, 51, 53, 56, 59, 62, 65, 68])
  | .high =>
    ([1, 1, 2, 4, 4, 4, 5, 6, 8, 8, 11, 11, 16, 16, 18, 16, 19, 21, 25, 25] ++
     [25, 34, 30, 32, 35, 37, 40, 42, 45, 48, 51, 54, 57, 60, 63, 66, 70, 74, 77, 81])

/-- A(v), the number of data modules (rule R77). -/
def dataModules (v : Nat) : Nat :=
  if v < 2 then (16 * v + 128) * v + 64
  else
    let a := v / 7 + 2
    (16 * v + 128) * v + 64 - ((25 * a - 10) * a - 55) - (if 7 ≤ v then 36 else 0)

/-- T(v), the total codewords (rule R77). -/
def totalCodewords (v : Nat) : Nat := dataModules v / 8

/-- The group split (rule R78) of T(v) codewords over the blocks of rule R76. -/
def defaultPlan (level : Level) (v : Nat) : Plan :=
  let ec := (ecTable level).getD (v - 1) 0
  let blocks := (blockTable level).getD (v - 1) 0
  let long := totalCodewords v % blocks
  let short := totalCodewords v / blocks
  let k1 := short - ec
  ⟨blocks - long, k1, long, if 0 < long then k1 + 1 else 0, ec⟩

/-- The coordinate list C(v), v ≥ 2 (rule R82). -/
def alignmentCoordinates (v : Nat) : List Nat :=
  let a := v / 7 + 2
  let step := if v = 32 then 26 else 2 * ((4 * v + 2 * a + 1) / (2 * a - 2))
  6 :: (List.range (a - 1)).map fun i => sideOf v - 7 - step * (a - 2 - i)

/-- The default centre pairs (rule R82): every pair of coordinates but the three that would overlap a finder, row-major. -/
def defaultAlignmentPairs (v : Nat) : List (Nat × Nat) :=
  if v < 2 then []
  else
    let cs := alignmentCoordinates v
    let last := sideOf v - 7
    (cs.flatMap fun r => cs.map fun c => (r, c)).filter fun p =>
      !(p == (6, 6) || p == (6, last) || p == (last, 6))

/-- The versions 1..40 (rule R4), in order. -/
def versions : List Nat := (List.range 40).map (· + 1)

/-- The default alphanumeric table (rule R83). -/
def defaultAlnum : List (Byte × Fin 45) :=
  [(0x30, 0), (0x31, 1), (0x32, 2), (0x33, 3), (0x34, 4), (0x35, 5), (0x36, 6), (0x37, 7), (0x38, 8), (0x39, 9)] ++
  [(0x41, 10), (0x42, 11), (0x43, 12), (0x44, 13), (0x45, 14), (0x46, 15), (0x47, 16), (0x48, 17), (0x49, 18),
   (0x4A, 19), (0x4B, 20), (0x4C, 21), (0x4D, 22)] ++
  [(0x4E, 23), (0x4F, 24), (0x50, 25), (0x51, 26), (0x52, 27), (0x53, 28), (0x54, 29), (0x55, 30), (0x56, 31),
   (0x57, 32), (0x58, 33), (0x59, 34), (0x5A, 35)] ++
  [(0x20, 36), (0x24, 37), (0x25, 38), (0x2A, 39), (0x2B, 40), (0x2D, 41), (0x2E, 42), (0x2F, 43), (0x3A, 44)]

/-- The default REFDATA (rules R76 to R83). -/
def defaultRefData : RefData where
  plans :=
    { low := versions.map (defaultPlan .low)
      medium := versions.map (defaultPlan .medium)
      quartile := versions.map (defaultPlan .quartile)
      high := versions.map (defaultPlan .high) }
  remainderBits := versions.map fun v => Fin.ofNat 8 (dataModules v % 8)
  alignmentPairs := versions.map defaultAlignmentPairs
  modeIndicator := { numeric := 1, alphanumeric := 2, byte := 4 }
  ccWidth :=
    { numeric := ⟨10, 12, 14⟩
      alphanumeric := ⟨9, 11, 13⟩
      byte := ⟨8, 16, 16⟩ }
  alnum := defaultAlnum

/-- The default parameters: REFDATA of rules R76 to R83, P3_SECOND = Complement (rule R4). -/
def defaultParams : Params := ⟨defaultRefData, .complement⟩

end Sys2Proof.Machine
end

