-- ==== Sys2Proof/Machine/State.lean ====
section
/-! DEFINITION. The state of one block (10_state.md rule R20): the register block, the buffers, MATRIX, the sequencer state,
and the model's own fields (the host's pending inputs, the reply of its last access, counters for free values, and the
parameters of rule R4). Plain data throughout. -/

namespace Sys2Proof.Machine

open Sys2Proof.Config

/-- A buffer's known contents: (index, value) pairs with rising indexes, `Memory 8` being a list of `Host.Cell`. An index
that is not listed holds no known value: it has not been written since the last reset (rule R290) and reads as a draw. -/
abbrev Memory (w : Nat) := List (Nat × BitVec w)

/-- FAULT.CODE values 0 to 8 (60_exceptions.md rule R261); 9 to 15 are never written. -/
inductive FaultCode where
  | none
  | illegal
  | config
  | charset
  | overflow
  | sequence
  | placement
  | cell
  | refdata
  deriving DecidableEq, Repr

/-- The FAULT register (rule R31): CODE, OP and INFO. Its bits [7:4] read 0. -/
structure FaultReg where
  code : FaultCode
  op   : Byte
  info : BitVec 16
  deriving DecidableEq, Repr

/-- FAULT = 0: no fault recorded (rules R31, R261). -/
def FaultReg.zero : FaultReg := ⟨.none, 0, 0⟩

/-- The sequencer state `seq` (rule R50): Idle, or Exec(w, s) with the accepted word and the stage index within RUN. -/
inductive Seq where
  | idle
  | exec (w : Word) (stage : Fin 5)
  deriving DecidableEq, Repr

/-- What reaches the block from outside, in the order in which it takes effect (rules R61, R69, R290). Between two of them
the host may let the sequencer take a step; how many accesses land before a command ends is the open LATENCY (rule R302). -/
inductive Input where
  /-- The host performs one bus access. -/
  | access (a : Access)
  /-- The sequencer takes its next step (none if it is Idle). -/
  | sequencer
  /-- `rst` is asserted; an access that coincides with it has no effect (rule R291). -/
  | reset (coinciding : Option Access)
  deriving DecidableEq, Repr

/-- What the last host access returned (rules R61, R64): OK or a bus error, and 32 data bits (0 for a write and for a bus
error; an 8-bit read returns its byte in bits [7:0]). -/
structure Reply where
  busError : Bool
  data     : Word
  deriving DecidableEq, Repr

/-- The state (rule R20). STATUS.BUSY is `seq ≠ Idle` (rule R50), STATUS.FAULTED is `FAULT.CODE ≠ 0` (rule R26) and the
output `irq` is a function of the state (rule R51), so none of the three is stored. ID is a constant and CMD holds no value
(rules R21, R32). -/
structure State where
  /-- CTRL.IE (rule R22). -/
  ie          : Bool
  /-- STATUS.DONE (rule R25). -/
  done        : Bool
  /-- STATUS.DCW_VALID (rule R27). -/
  dcwValid    : Bool
  /-- STATUS.STREAM_VALID (rule R28). -/
  streamValid : Bool
  /-- STATUS.DROPPED (rule R29). -/
  dropped     : Bool
  /-- STATUS.MASK_VALID (rule R30). -/
  maskValid   : Bool
  /-- FAULT (rule R31). -/
  fault       : FaultReg
  /-- CFG.LEVEL (rule R33). -/
  level       : Level
  /-- CFG.MODE (rule R33). -/
  mode        : Mode
  /-- CFG.VERSION, stored as written (rule R33). -/
  version     : BitVec 6
  /-- MSG_LEN.LEN, stored as written (rule R34). -/
  msgLen      : BitVec 14
  /-- RS_K.K (rule R35). -/
  rsK         : Byte
  /-- DBITS (rule R36). -/
  dbits       : BitVec 16
  /-- DCW_COUNT (rule R37). -/
  dcwCount    : BitVec 12
  /-- STREAM_BITS (rule R38). -/
  streamBits  : BitVec 16
  /-- MASK_SEL (rule R39). -/
  maskSel     : BitVec 3
  /-- PEN1 (rule R40). -/
  pen1        : Word
  /-- PEN2 (rule R40). -/
  pen2        : Word
  /-- PEN3 (rule R40). -/
  pen3        : Word
  /-- PEN4 (rule R40). -/
  pen4        : Word
  /-- PEN_TOTAL (rule R40). -/
  penTotal    : Word
  /-- GEN_DEG (rule R41). -/
  genDeg      : BitVec 5
  /-- PENMASK[0..7] (rule R42). -/
  penMask     : Vector Word 8
  /-- GEN[0..30] (rule R43). -/
  gen         : Vector Byte 31
  /-- MSG, 7089 bytes (rule R44). -/
  msg         : Memory 8
  /-- DCW, 2956 bytes (rule R45). -/
  dcw         : Memory 8
  /-- STREAM, 3707 bytes (rule R46). -/
  stream      : Memory 8
  /-- RSBUF, 256 bytes (rule R47). -/
  rsbuf       : Memory 8
  /-- RSEC, 32 bytes (rule R48). -/
  rsec        : Memory 8
  /-- MATRIX, 177 × 177 cells, cell (r, c) at index 177·r + c (rule R49). -/
  matrix      : Memory 3
  /-- The sequencer state (rule R50). -/
  seq         : Seq
  /-- MODEL's own: what the outside world does next, first one first (rules R5, R69). -/
  inputs      : List Input
  /-- MODEL's own: what the last host access returned (rule R61). -/
  reply       : Reply
  /-- MODEL's own: how many unspecified reads there have been (rule R297). -/
  draws       : Nat
  /-- MODEL's own: how many times `rst` was asserted; each one draws the buffers anew (rule R290). -/
  epoch       : Nat
  /-- The implementation parameters REFDATA and P3_SECOND (rule R4); no step changes them. -/
  params      : Params
  deriving DecidableEq, Repr

/-- Why the machine stops with a fault: never. The spec gives every host access and every command word an outcome (rule
R10), and a hardware fault (rule R265) is a next state whose FAULT register is written; so this type has no member. -/
inductive Fault where
  deriving DecidableEq, Repr

/-- Why an instruction is refused. -/
inductive Refusal where
  /-- Raised by an arm of `exec` whose command has no meaning yet, by mnemonic; safe. No arm raises it: every command of
  rule R110 has its meaning. -/
  | notModelled (mnemonic : String)
  deriving DecidableEq, Repr

/-- The state right after reset (rule R290), with nothing on the host's bus, the default parameters, and every buffer
without a known value. -/
def State.reset : State where
  ie := false
  done := false
  dcwValid := false
  streamValid := false
  dropped := false
  maskValid := false
  fault := FaultReg.zero
  level := .low
  mode := .numeric
  version := 0
  msgLen := 0
  rsK := 0
  dbits := 0
  dcwCount := 0
  streamBits := 0
  maskSel := 0
  pen1 := 0
  pen2 := 0
  pen3 := 0
  pen4 := 0
  penTotal := 0
  genDeg := 0
  penMask := Vector.replicate 8 0
  gen := Vector.replicate 31 0
  msg := []
  dcw := []
  stream := []
  rsbuf := []
  rsec := []
  matrix := []
  seq := .idle
  inputs := []
  reply := ⟨false, 0⟩
  draws := 0
  epoch := 0
  params := defaultParams

end Sys2Proof.Machine
end

