-- ==== Sys2Proof/Machine/Flags.lean ====
section
/-! DEFINITION. The STATUS flags (10_state.md rules R23 to R30), the interrupt output (R51) and the words a host reads for
STATUS, CTRL, FAULT and CFG. -/

namespace Sys2Proof.Machine

open Sys2Proof.Config

/-- Bit `k` of a register, when it is set. -/
def bitAt (k : Nat) (b : Bool) : Word := if b then BitVec.ofNat 32 (2 ^ k) else 0

/-- STATUS.BUSY: 1 exactly when `seq ≠ Idle` (rules R24, R50). -/
def Seq.busy : Seq → Bool
  | .idle => false
  | .exec _ _ => true

/-- STATUS.BUSY (rules R24, R50). -/
def State.busy (s : State) : Bool := s.seq.busy

/-- STATUS.FAULTED reads FAULT.CODE ≠ 0 (rule R26). -/
def State.faulted (s : State) : Bool := decide (s.fault.code ≠ .none)

/-- STATUS (rule R23): BUSY, DONE, FAULTED, DCW_VALID, STREAM_VALID, DROPPED, MASK_VALID in bits 0 to 6. -/
def State.statusWord (s : State) : Word :=
  bitAt 0 s.busy ||| bitAt 1 s.done ||| bitAt 2 s.faulted ||| bitAt 3 s.dcwValid ||| bitAt 4 s.streamValid |||
    bitAt 5 s.dropped ||| bitAt 6 s.maskValid

/-- The output `irq` = CTRL.IE ∧ (STATUS.DONE ∨ STATUS.FAULTED) (rules R51, R270). -/
def State.irq (s : State) : Bool := s.ie && (s.done || s.faulted)

/-- A host write of v to STATUS (rule R23): clears DONE if v[1] = 1 and DROPPED if v[5] = 1, and changes nothing else. -/
def State.writeStatus (s : State) (v : Word) : State :=
  { s with done := s.done && !v.getLsbD 1, dropped := s.dropped && !v.getLsbD 5 }

/-- A host write to CFG, MSG_LEN or a MSG byte clears DCW_VALID and STREAM_VALID (rules R27, R28). -/
def State.invalidateCodewords (s : State) : State :=
  { s with dcwValid := false, streamValid := false }

/-- A dropped host write changes nothing except STATUS.DROPPED ← 1 (rules R29, R263, R296). -/
def State.drop (s : State) : State := { s with dropped := true }

/-- CTRL (rule R22). -/
def State.ctrlWord (s : State) : Word := bitAt 0 s.ie

/-- The 4-bit CODE of a fault (rule R261). -/
def FaultCode.code : FaultCode → BitVec 4
  | .none => 0
  | .illegal => 1
  | .config => 2
  | .charset => 3
  | .overflow => 4
  | .sequence => 5
  | .placement => 6
  | .cell => 7
  | .refdata => 8

/-- FAULT as the host reads it (rule R31): INFO in [31:16], OP in [15:8], 0 in [7:4], CODE in [3:0]. -/
def State.faultWord (s : State) : Word :=
  (s.fault.info ++ s.fault.op) ++ ((0#4) ++ s.fault.code.code)

/-- The 2-bit code of CFG.LEVEL (rule R105). -/
def levelCode : Level → BitVec 2
  | .low => 0
  | .medium => 1
  | .quartile => 2
  | .high => 3

/-- The level a 2-bit code names; every value is legal (rules R33, R105). -/
def levelOfCode (b : BitVec 2) : Level :=
  if b = 0 then .low else if b = 1 then .medium else if b = 2 then .quartile else .high

/-- The 2-bit code of CFG.MODE (rule R105). -/
def modeCode : Mode → BitVec 2
  | .numeric => 0
  | .alphanumeric => 1
  | .byte => 2
  | .kanji => 3

/-- The mode a 2-bit code names (rule R105). -/
def modeOfCode (b : BitVec 2) : Mode :=
  if b = 0 then .numeric else if b = 1 then .alphanumeric else if b = 2 then .byte else .kanji

/-- CFG as the host reads it (rule R33): LEVEL in [1:0], MODE in [5:4], VERSION in [13:8], the other bits 0. -/
def State.cfgWord (s : State) : Word :=
  ((0#18) ++ s.version) ++ (((0#2) ++ modeCode s.mode) ++ ((0#2) ++ levelCode s.level))

end Sys2Proof.Machine
end

