-- ==== Sys2Proof/Machine/Ops.lean ====
section
/-! DEFINITION. The named operations over the buffers and the registers: reading and writing a buffer's known contents, the
draw an unwritten element reads as, the two ends of a command (completing, and taking a fault) and the host's clearing of a
fault, which is the return from it (60_exceptions.md rules R260 to R268). -/

namespace Sys2Proof.Machine

open Sys2Proof.Config

/-! ### Known contents of a buffer -/

/-- The canonical form: indexes strictly rising and below the buffer's size. -/
abbrev Memory.wf {w : Nat} (cap : Nat) (m : Memory w) : Prop :=
  m.Pairwise (fun a b => a.1 < b.1) ∧ ∀ x ∈ m, x.1 < cap

/-- The known value at an index. -/
def Memory.find {w : Nat} : Memory w → Nat → Option (BitVec w)
  | [], _ => none
  | (j, v) :: m, i => if j = i then some v else Memory.find m i

/-- Write one element. -/
def Memory.write {w : Nat} : Memory w → Nat → BitVec w → Memory w
  | [], i, v => [(i, v)]
  | (j, u) :: m, i, v =>
    if i < j then (i, v) :: (j, u) :: m
    else if i = j then (i, v) :: m
    else (j, u) :: Memory.write m i v

/-- The canonical form of a list of writes to different elements. -/
def Memory.ofWrites {w : Nat} (us : List (Nat × BitVec w)) : Memory w :=
  us.foldr (fun u m => Memory.write m u.1 u.2) []

/-- `m` with the elements of `us` (in canonical form) written over it. -/
def Memory.overlay {w : Nat} : Memory w → Memory w → Memory w
  | [], m => m
  | u :: us, m =>
    m.takeWhile (fun x => decide (x.1 < u.1)) ++
      u :: Memory.overlay us (m.dropWhile fun x => decide (x.1 ≤ u.1))

/-- The writes of a commit block, each to a different element, take effect together (rule R8 `commit`). -/
def Memory.commit {w : Nat} (m : Memory w) (us : List (Nat × BitVec w)) : Memory w :=
  Memory.overlay (Memory.ofWrites us) m

/-- The writes `X[base] ← vs[0], X[base+1] ← vs[1], …`. -/
def writesFrom {w : Nat} : Nat → List (BitVec w) → List (Nat × BitVec w)
  | _, [] => []
  | base, v :: vs => (base, v) :: writesFrom (base + 1) vs

/-! ### Buffers and their elements -/

/-- The six windows (rule R60). -/
inductive Window where
  | msg | dcw | stream | rsbuf | rsec | matrix
  deriving DecidableEq, Repr

/-- The first host address of a window (rule R60). -/
def Window.base : Window → Nat
  | .msg => 0x1000
  | .dcw => 0x3000
  | .stream => 0x4000
  | .rsbuf => 0x5000
  | .rsec => 0x5100
  | .matrix => 0x8000

/-- The number of backed bytes of a window (rule R60). -/
def Window.size : Window → Nat
  | .msg => msgCap
  | .dcw => dcwCap
  | .stream => streamCap
  | .rsbuf => rsbufCap
  | .rsec => rsecCap
  | .matrix => nMax * nMax

/-- What element i of a buffer holds after reset until it is written: a free value (rule R290). -/
def State.draw (s : State) (w : Window) (i : Nat) : Byte := bufferDraw s.epoch (w.base + i)

/-- `MSG[i]` (rule R44). -/
def State.msgByte (s : State) (i : Nat) : Byte := (s.msg.find i).getD (s.draw .msg i)
/-- `DCW[i]` (rule R45). -/
def State.dcwByte (s : State) (i : Nat) : Byte := (s.dcw.find i).getD (s.draw .dcw i)
/-- `STREAM[i]` (rule R46). -/
def State.streamByte (s : State) (i : Nat) : Byte := (s.stream.find i).getD (s.draw .stream i)
/-- `RSBUF[i]` (rule R47). -/
def State.rsbufByte (s : State) (i : Nat) : Byte := (s.rsbuf.find i).getD (s.draw .rsbuf i)
/-- `RSEC[i]` (rule R48). -/
def State.rsecByte (s : State) (i : Nat) : Byte := (s.rsec.find i).getD (s.draw .rsec i)
/-- MATRIX cell i in row-major order, i = 177·r + c (rule R49). -/
def State.matrixCell (s : State) (i : Nat) : CellCode :=
  (s.matrix.find i).getD ((s.draw .matrix i).extractLsb' 0 3)

/-- The index of cell (r, c) (rules R49, R60). -/
def cellIndex (r c : Nat) : Nat := nMax * r + c

/-- `M[r][c]` (rules R8, R49). -/
def State.cell (s : State) (r c : Nat) : CellCode := s.matrixCell (cellIndex r c)

/-- One backed byte of a window as the host sees it; a matrix cell reads as zext_8 of its code (rule R63). -/
def State.windowByte (s : State) : Window → Nat → Byte
  | .msg, i => s.msgByte i
  | .dcw, i => s.dcwByte i
  | .stream, i => s.streamByte i
  | .rsbuf, i => s.rsbufByte i
  | .rsec, i => s.rsecByte i
  | .matrix, i => (s.matrixCell i).zeroExtend 8

/-! ### The GEN register file -/

/-- `for j in 0..30: GEN[j] ← (g[j] if j ≤ n else 0)` for g of n + 1 exponents (rules R43, R166). -/
def genFile (g : List Nat) : Vector Byte 31 := Vector.ofFn fun j => BitVec.ofNat 8 (g.getD j.val 0)

/-! ### The two ends of a command -/

/-- What `raise F(code, info)` hands over (rule R8). -/
structure Raised where
  code : FaultCode
  info : BitVec 16
  deriving DecidableEq, Repr

/-- What a command or a RUN stage does: fault, or commit its writes (rule R260). -/
abbrev Effect := Except Raised State

/-- Taking a fault (rule R265): FAULT ← {CODE, OP, INFO} and `seq ← Idle`; STATUS.DONE stays 0 and nothing else is written
(rule R266). There is no program counter, mode or handler to change (rule R269). -/
def State.raise (s : State) (op : Byte) (r : Raised) : State :=
  { s with fault := ⟨r.code, op, r.info⟩, seq := .idle }

/-- The return from a fault (rule R268): a host write of any value to FAULT sets FAULT to 0 and restores nothing. -/
def State.clearFault (s : State) : State := { s with fault := FaultReg.zero }

/-- Completion (rule R265): STATUS.DONE ← 1 and `seq ← Idle`, with the commit already in `s`. -/
def State.complete (s : State) : State := { s with done := true, seq := .idle }

/-- The end of a command other than RUN (rules R260, R265). -/
def State.finish (s : State) (op : Byte) : Effect → Host.Outcome State Fault Refusal
  | .ok t => .next t.complete
  | .error r => .next (s.raise op r)

/-- An accepted word that rule R111 calls illegal faults with E_ILLEGAL and executes nothing (rule R264); FAULT.OP is bits
[7:0] of the word (rule R262). -/
def State.raiseIllegal (s : State) (w : Word) (why : IllegalWord) : State :=
  s.raise (opField w) ⟨.illegal, why.info⟩

/-! ### Reset -/

/-- `rst` asserted (rules R290, R291): the state of reset; the buffers' contents are drawn anew; what the outside world does
next, the parameters and the model's counters stand. -/
def State.afterReset (s : State) : State :=
  { State.reset with
    inputs := s.inputs, reply := s.reply, draws := s.draws, epoch := s.epoch + 1, params := s.params }

end Sys2Proof.Machine
end

