-- ==== Sys2Proof/Machine/Bus.lean ====
section
/-! DEFINITION. The host bus: the address map, the registers at their offsets, reads, writes, bus errors, dropped writes and
the acceptance of a command (20_memory.md, 60_exceptions.md rule R263, 70_reset_and_hazards.md rules R296, R297). -/

namespace Sys2Proof.Machine

open Sys2Proof.Config

/-! ### The address map -/

/-- Where an address lies (rule R60). -/
inductive Location where
  | register (offset : Nat)
  | window (w : Window) (offset : Nat)
  | unmapped
  deriving DecidableEq, Repr

/-- The address map (rule R60). -/
def locate (a : Addr) : Location :=
  let n := a.toNat
  if n < 0x0100 then .register n
  else if n < 0x1000 then .unmapped
  else if n < 0x3000 then .window .msg (n - 0x1000)
  else if n < 0x4000 then .window .dcw (n - 0x3000)
  else if n < 0x5000 then .window .stream (n - 0x4000)
  else if n < 0x5100 then .window .rsbuf (n - 0x5000)
  else if n < 0x5120 then .window .rsec (n - 0x5100)
  else if n < 0x8000 then .unmapped
  else .window .matrix (n - 0x8000)

/-- The registers of the register block (10_state.md section 1). -/
inductive Reg where
  | id | ctrl | status | fault | cmd | cfg | msgLen | rsK | dbits | dcwCount | streamBits | maskSel
  | pen1 | pen2 | pen3 | pen4 | penTotal | genDeg
  | penMask (m : Fin 8)
  | gen (j : Fin 31)
  deriving DecidableEq, Repr

/-- The register at a word offset; none at the reserved offsets 0x048..0x05C and 0x0FC (10_state.md section 1, rule R66). -/
def Reg.ofOffset (n : Nat) : Option Reg :=
  if n = 0x000 then some .id
  else if n = 0x004 then some .ctrl
  else if n = 0x008 then some .status
  else if n = 0x00C then some .fault
  else if n = 0x010 then some .cmd
  else if n = 0x014 then some .cfg
  else if n = 0x018 then some .msgLen
  else if n = 0x01C then some .rsK
  else if n = 0x020 then some .dbits
  else if n = 0x024 then some .dcwCount
  else if n = 0x028 then some .streamBits
  else if n = 0x02C then some .maskSel
  else if n = 0x030 then some .pen1
  else if n = 0x034 then some .pen2
  else if n = 0x038 then some .pen3
  else if n = 0x03C then some .pen4
  else if n = 0x040 then some .penTotal
  else if n = 0x044 then some .genDeg
  else if 0x060 ≤ n ∧ n ≤ 0x07C ∧ n % 4 = 0 then some (.penMask (Fin.ofNat 8 ((n - 0x060) / 4)))
  else if 0x080 ≤ n ∧ n ≤ 0x0F8 ∧ n % 4 = 0 then some (.gen (Fin.ofNat 31 ((n - 0x080) / 4)))
  else none

/-- The value a register reads (rules R21 to R43); CMD reads 0, reserved bits read 0. -/
def State.readReg (s : State) : Reg → Word
  | .id => 0x51520007
  | .ctrl => s.ctrlWord
  | .status => s.statusWord
  | .fault => s.faultWord
  | .cmd => 0
  | .cfg => s.cfgWord
  | .msgLen => s.msgLen.zeroExtend 32
  | .rsK => s.rsK.zeroExtend 32
  | .dbits => s.dbits.zeroExtend 32
  | .dcwCount => s.dcwCount.zeroExtend 32
  | .streamBits => s.streamBits.zeroExtend 32
  | .maskSel => s.maskSel.zeroExtend 32
  | .pen1 => s.pen1
  | .pen2 => s.pen2
  | .pen3 => s.pen3
  | .pen4 => s.pen4
  | .penTotal => s.penTotal
  | .genDeg => s.genDeg.zeroExtend 32
  | .penMask m => s.penMask[m]
  | .gen j => (s.gen[j]).zeroExtend 32

/-- The bits of a register that are not reserved (rules R21 to R43); CMD reads 0 as a whole (rule R32). -/
def Reg.fieldBits : Reg → Word
  | .id => 0xFFFFFFFF
  | .ctrl => 0x00000001
  | .status => 0x0000007F
  | .fault => 0xFFFFFF0F
  | .cmd => 0x00000000
  | .cfg => 0x00003F33
  | .msgLen => 0x00003FFF
  | .rsK => 0x000000FF
  | .dbits => 0x0000FFFF
  | .dcwCount => 0x00000FFF
  | .streamBits => 0x0000FFFF
  | .maskSel => 0x00000007
  | .pen1 => 0xFFFFFFFF
  | .pen2 => 0xFFFFFFFF
  | .pen3 => 0xFFFFFFFF
  | .pen4 => 0xFFFFFFFF
  | .penTotal => 0xFFFFFFFF
  | .genDeg => 0x0000001F
  | .penMask _ => 0xFFFFFFFF
  | .gen _ => 0x000000FF

/-- The registers whose reads return their values while BUSY: the seven of rule R297, and CMD, which always reads 0 (rules
R32, R65) and which R297 does not list among the unspecified ones (notes/assumptions/2). -/
def Reg.readableWhileBusy : Reg → Bool
  | .id => true
  | .ctrl => true
  | .status => true
  | .fault => true
  | .cfg => true
  | .msgLen => true
  | .rsK => true
  | .cmd => true
  | .dbits => false
  | .dcwCount => false
  | .streamBits => false
  | .maskSel => false
  | .pen1 => false
  | .pen2 => false
  | .pen3 => false
  | .pen4 => false
  | .penTotal => false
  | .genDeg => false
  | .penMask _ => false
  | .gen _ => false

/-! ### Replies -/

/-- A completed access returns OK and these data bits (rule R61). -/
def State.replyOk (s : State) (data : Word) : State := { s with reply := ⟨false, data⟩ }

/-- A bus error: no state changes, and a read returns data 0 (rule R64). -/
def State.replyBusError (s : State) : State := { s with reply := ⟨true, 0⟩ }

/-- A read that rule R297 leaves unspecified returns a free value in the bits of `free`; the other bits are those that other
rules fix at 0 whatever the block does. -/
def State.replyDraw (s : State) (free : Word) : State :=
  { s with reply := ⟨false, busyReadDraw s.draws &&& free⟩, draws := s.draws + 1 }

/-! ### Reads -/

/-- A byte of a window; an offset beyond the backed size reads 0 (rule R60). -/
def State.windowRead (s : State) (w : Window) (i : Nat) : Byte :=
  if i < w.size then s.windowByte w i else 0

/-- The byte of a window that the host sees at an address while the block is Idle, 0 outside the windows (rule R60). -/
def State.byteAt (s : State) (a : Addr) : Byte :=
  match locate a with
  | .register _ => 0
  | .window w i => s.windowRead w i
  | .unmapped => 0

/-- The bytes at a, a+1, a+2, a+3 travel in data bits [7:0], [15:8], [23:16], [31:24] (rule R63). -/
def State.windowRead32 (s : State) (w : Window) (i : Nat) : Word :=
  (s.windowRead w (i + 3) ++ s.windowRead w (i + 2)) ++ (s.windowRead w (i + 1) ++ s.windowRead w i)

/-- The bits of a window byte that are unspecified while BUSY (rule R297): none beyond the backed size, which reads 0 (rule
R60); the cell's code in MATRIX, whose bits [7:3] read 0 (rule R63). -/
def Window.freeBits (w : Window) (i : Nat) : Byte :=
  if i < w.size then if w = .matrix then 0x07 else 0xFF else 0

/-- The same for the four bytes of a 32-bit read (rule R63). -/
def Window.freeBits32 (w : Window) (i : Nat) : Word :=
  (w.freeBits (i + 3) ++ w.freeBits (i + 2)) ++ (w.freeBits (i + 1) ++ w.freeBits i)

/-- `MemRead(a, 1)`: a bus error in the register block, legal at any window address (rules R64, R297). -/
def State.hostRead8 (s : State) (a : Addr) : State :=
  match locate a with
  | .register _ => s.replyBusError
  | .unmapped => s.replyOk 0
  | .window w i =>
    if s.busy then s.replyDraw ((w.freeBits i).zeroExtend 32) else s.replyOk ((s.windowRead w i).zeroExtend 32)

/-- A read of a register (rules R66, R297); reserved bits read 0 while BUSY too. -/
def State.hostReadReg (s : State) (offset : Nat) : State :=
  match Reg.ofOffset offset with
  | none => s.replyOk 0
  | some r => if s.busy && !r.readableWhileBusy then s.replyDraw r.fieldBits else s.replyOk (s.readReg r)

/-- A 32-bit access is legal at multiples of 4 only (rule R64). -/
def aligned4 (a : Addr) : Bool := decide (a.toNat % 4 = 0)

/-- `MemRead(a, 4)` (rules R61 to R64, R297). -/
def State.hostRead32 (s : State) (a : Addr) : State :=
  if !aligned4 a then s.replyBusError
  else
    match locate a with
    | .register offset => s.hostReadReg offset
    | .unmapped => s.replyOk 0
    | .window w i => if s.busy then s.replyDraw (w.freeBits32 i) else s.replyOk (s.windowRead32 w i)

/-! ### Writes -/

/-- A write of w to CMD (rule R263): accepted when the sequencer is Idle and FAULT.CODE = 0 (`seq ← Exec(w, 0)`, DONE ← 0),
otherwise dropped. -/
def State.offerCommand (s : State) (w : Word) : State :=
  if s.busy || s.faulted then s.drop
  else { s with seq := .exec w 0, done := false }

/-- A write that the busy rule drops while BUSY (rule R296). -/
def State.unlessBusy (s t : State) : State := if s.busy then s.drop else t

/-- A host write to CFG (rule R33): LEVEL, MODE and VERSION as written, and the codewords become invalid (rule R27). -/
def State.writeCfg (s : State) (v : Word) : State :=
  State.invalidateCodewords
    { s with
      level := levelOfCode (v.extractLsb' 0 2)
      mode := modeOfCode (v.extractLsb' 4 2)
      version := v.extractLsb' 8 6 }

/-- A host write to MSG_LEN (rule R34); the codewords become invalid (rule R27). -/
def State.writeMsgLen (s : State) (v : Word) : State :=
  State.invalidateCodewords { s with msgLen := v.extractLsb' 0 14 }

/-- A host write of v to a register (rules R65, R67, R296): read-only registers ignore it; STATUS and FAULT writes are
performed even while BUSY. -/
def State.writeReg (s : State) (v : Word) : Reg → State
  | .ctrl => s.unlessBusy { s with ie := v.getLsbD 0 }
  | .status => s.writeStatus v
  | .fault => s.clearFault
  | .cmd => s.offerCommand v
  | .cfg => s.unlessBusy (s.writeCfg v)
  | .msgLen => s.unlessBusy (s.writeMsgLen v)
  | .rsK => s.unlessBusy { s with rsK := v.extractLsb' 0 8 }
  | .id => s
  | .dbits => s
  | .dcwCount => s
  | .streamBits => s
  | .maskSel => s
  | .pen1 => s
  | .pen2 => s
  | .pen3 => s
  | .pen4 => s
  | .penTotal => s
  | .genDeg => s
  | .penMask _ => s
  | .gen _ => s

/-- The windows the host may write (rules R60, R65). -/
def Window.writable : Window → Bool
  | .msg => true
  | .rsbuf => true
  | .matrix => true
  | .dcw => false
  | .stream => false
  | .rsec => false

/-- The writes of one access that fall on backed bytes of a window; the others are ignored (rule R60). -/
def backedWrites (w : Window) (us : List (Nat × Byte)) : List (Nat × Byte) :=
  us.filter fun u => decide (u.1 < w.size)

/-- Store bytes in a writable window: a MSG byte invalidates the codewords (rule R27), a MATRIX byte stores its bits [2:0]
(rule R63). -/
def State.storeBytes (s : State) (us : List (Nat × Byte)) : Window → State
  | .msg => State.invalidateCodewords { s with msg := s.msg.commit us }
  | .rsbuf => { s with rsbuf := s.rsbuf.commit us }
  | .matrix => { s with matrix := s.matrix.commit (us.map fun u => (u.1, u.2.extractLsb' 0 3)) }
  | .dcw => s
  | .stream => s
  | .rsec => s

/-- A host write of bytes to a window: ignored in a read-only window or beyond the backed size, dropped while BUSY, done
together otherwise (rules R60, R65, R67, R296). -/
def State.writeWindow (s : State) (w : Window) (us : List (Nat × Byte)) : State :=
  if !w.writable || (backedWrites w us).isEmpty then s
  else s.unlessBusy (s.storeBytes (backedWrites w us) w)

/-- `MemWrite(a, 1, v)` (rules R61, R64). -/
def State.hostWrite8 (s : State) (a : Addr) (v : Byte) : State :=
  match locate a with
  | .register _ => s.replyBusError
  | .unmapped => s.replyOk 0
  | .window w i => (s.writeWindow w [(i, v)]).replyOk 0

/-- The four bytes of a 32-bit write, lowest address in bits [7:0] (rule R63). -/
def wordBytes (v : Word) : List Byte :=
  [v.extractLsb' 0 8, v.extractLsb' 8 8, v.extractLsb' 16 8, v.extractLsb' 24 8]

/-- A write to the register block (rule R66: a reserved offset ignores it). -/
def State.hostWriteReg (s : State) (offset : Nat) (v : Word) : State :=
  match Reg.ofOffset offset with
  | none => s
  | some r => s.writeReg v r

/-- `MemWrite(a, 4, v)` (rules R61 to R64). -/
def State.hostWrite32 (s : State) (a : Addr) (v : Word) : State :=
  if !aligned4 a then s.replyBusError
  else
    match locate a with
    | .register offset => (s.hostWriteReg offset v).replyOk 0
    | .unmapped => s.replyOk 0
    | .window w i => (s.writeWindow w (writesFrom i (wordBytes v))).replyOk 0

/-- One host access, atomic with respect to the sequencer (rules R61, R68). -/
def State.access (s : State) : Access → State
  | .read8 a => s.hostRead8 a
  | .read32 a => s.hostRead32 a
  | .write8 a v => s.hostWrite8 a v
  | .write32 a v => s.hostWrite32 a v

end Sys2Proof.Machine
end

