-- ==== Sys2Proof/Machine/Bits.lean ====
section
/-! DEFINITION. Bit strings (00_scope.md rule R7): written left to right, most significant bit of a field first. -/

namespace Sys2Proof.Machine

/-- A bit string (rule R7). -/
abbrev Bits := List Bool

/-- `bin_w(v)`: the w-bit string of v, most significant bit first (rule R7). -/
def bin : Nat → Nat → Bits
  | 0, _ => []
  | w + 1, v => v.testBit w :: bin w v

/-- A string of n zero bits. -/
def zeroBits (n : Nat) : Bits := List.replicate n false

/-- The byte Σ_{t=0..7} s[t]·2^(7−t) (rule R7); a bit beyond the end of the string is 0 (rule R46). -/
def byteOfBits (s : Bits) : Byte :=
  BitVec.ofNat 8 ((List.range 8).foldl (fun acc t => 2 * acc + (s.getD t false).toNat) 0)

/-- The first n bytes of a bit string: codeword j is the byte of bits 8j to 8j + 7 (rules R7, R63, R142). -/
def bytesOfBits : Nat → Bits → List Byte
  | 0, _ => []
  | n + 1, s => byteOfBits (s.take 8) :: bytesOfBits n (s.drop 8)

/-- The bit string of a list of bytes, each as `bin_8` (rules R136, R184). -/
def bitsOfBytes (bs : List Byte) : Bits := bs.flatMap fun b => bin 8 b.toNat

/-- ⌈n / 8⌉, the bytes that n bits take (rules R46, R180). -/
def bytesFor (n : Nat) : Nat := (n + 7) / 8

end Sys2Proof.Machine
end

