-- ==== Sys2Proof/Machine/Operands.lean ====
section
/-! DEFINITION. Where commands find their operands (30_encoding.md rule R102): the fields of CFG, MSG_LEN and RS_K, the
elements of the buffers, the N × N area of MATRIX, and the checks on them that several commands share. -/

namespace Sys2Proof.Machine

open Sys2Proof.Config

/-- CFG.VERSION as a number (rule R33). -/
def State.versionNat (s : State) : Nat := s.version.toNat

/-- VERSION is in 1..40 (rule R106). -/
def versionLegal (v : Nat) : Bool := decide (1 ≤ v) && decide (v ≤ 40)

/-- The check that opens every command that uses the version: E_CONFIG INFO 1 unless VERSION is in 1..40 (rules R106, R267);
otherwise the command goes on with v. -/
def State.withVersion (s : State) (k : Nat → Effect) : Effect :=
  if versionLegal s.versionNat then k s.versionNat else .error ⟨.config, 1⟩

/-- CFG.MODE among the three modes the block packs; none for Kanji (rules R33, R105). -/
def packMode : Mode → Option PackMode
  | .numeric => some .numeric
  | .alphanumeric => some .alphanumeric
  | .byte => some .byte
  | .kanji => none

/-- The first n elements of a buffer. -/
def firstBytes (f : Nat → Byte) (n : Nat) : List Byte := (List.range n).map f

/-- The bits of the stream, `bit(k)` at position k: bit 7 − (k mod 8) of STREAM[⌊k/8⌋] (rules R63, R205). -/
def State.streamBitString (s : State) : Bits :=
  bitsOfBytes (firstBytes s.streamByte (bytesFor s.streamBits.toNat))

/-! ### The matrix -/

/-- A matrix: the code of the cell at row r, column c (rule R8 `M[r][c]`). -/
abbrev Matrix := Nat → Nat → CellCode

/-- Empty = 0 (rule R104). -/
def emptyCell : CellCode := 0
/-- Reserved = 1 (rule R104). -/
def reservedCell : CellCode := 1
/-- Background = 2 (rule R104). -/
def backgroundCell : CellCode := 2
/-- Foreground = 3 (rule R104). -/
def foregroundCell : CellCode := 3
/-- PatternBackground = 4 (rule R104). -/
def patternBackgroundCell : CellCode := 4
/-- PatternForeground = 5 (rule R104). -/
def patternForegroundCell : CellCode := 5

/-- The cells (r, c) of N × N in row-major order. -/
def cellsOf (n : Nat) : List (Nat × Nat) :=
  (List.range n).flatMap fun r => (List.range n).map fun c => (r, c)

/-- The rows of the N × N area of a matrix, evaluated once. -/
def rowsOf (n : Nat) (m : Matrix) : List (List CellCode) :=
  (List.range n).map fun r => (List.range n).map fun c => m r c

/-- A matrix whose rows were evaluated before; the same matrix as `m` when the rows are `rowsOf n m` (Laws/Ops.lean). -/
def withRows (rows : List (List CellCode)) (m : Matrix) : Matrix := fun r c =>
  match rows[r]? with
  | none => m r c
  | some row =>
    match row[c]? with
    | none => m r c
    | some x => x

/-- A command that reads MATRIX goes on with it, its N × N area evaluated once. -/
def State.withMatrix (s : State) (n : Nat) (k : Matrix → Effect) : Effect :=
  let rows := rowsOf n s.cell
  k (withRows rows s.cell)

/-- The contents of the whole 177 × 177 array, every cell known. -/
def wholeMatrix (w : Matrix) : Memory 3 :=
  (List.range' 0 (nMax * nMax)).map fun i => (i, w (i / nMax) (i % nMax))

/-- `MATRIX ← W` for the whole 177 × 177 array (rules R190, R251). -/
def State.setWholeMatrix (s : State) (w : Matrix) : State := { s with matrix := wholeMatrix w }

/-- The writes that turn the N × N area of `old` into that of `new`; a cell that keeps its code is not written. -/
def changedCells (n : Nat) (old new : Matrix) : List (Nat × CellCode) :=
  (cellsOf n).filterMap fun p =>
    if new p.1 p.2 = old p.1 p.2 then none else some (cellIndex p.1 p.2, new p.1 p.2)

/-- `MATRIX ← new` for a `new` that differs from MATRIX (`old`) inside N × N only (rules R230, R232). -/
def State.setMatrixN (s : State) (n : Nat) (old new : Matrix) : State :=
  { s with matrix := s.matrix.commit (changedCells n old new) }

/-- The check of PENALTY, MASKSEL and MASKAPPLY: E_CELL with INFO = 177·r + c of the first cell of N × N, in row-major
order, that is Empty or has code 6 or 7 (rules R220, R267); otherwise the command goes on. -/
def withColours (n : Nat) (m : Matrix) (k : Effect) : Effect :=
  match (cellsOf n).find? fun p => m p.1 p.2 == 0 || m p.1 p.2 == 6 || m p.1 p.2 == 7 with
  | some p => .error ⟨.cell, BitVec.ofNat 16 (cellIndex p.1 p.2)⟩
  | none => k

end Sys2Proof.Machine
end

