-- ==== Sys2Proof/Machine/ReedSolomon.lean ====
section
/-! DEFINITION. The Reed–Solomon encoder: genpoly, rsRemainder, GENPOLY and RSENC (41_reed_solomon.md). -/

namespace Sys2Proof.Machine

open Sys2Proof.Config

/-- The coefficients of g(x)·(x − 2^i), in the value domain, for g given by its exponents (rule R164): slot a + b gets the
XOR of exp((g[a] + [0, i][b]) mod 255). -/
def mulRoot (g : List Nat) (i : Nat) : List Byte :=
  List.zipWith gfAdd (g.map (fun e => gfExp ((e + 0) % 255)) ++ [0]) (0 :: g.map fun e => gfExp ((e + i) % 255))

/-- genpoly(n): the n + 1 log-domain exponents of G_n, highest power first (rule R164). The product starts from the constant
1, whose first pass gives the rule's [0, 0] (Laws/Field.lean, genpoly_one). -/
def genpoly : Nat → List Nat
  | 0 => [0]
  | n + 1 => (mulRoot (genpoly n) n).map gfLog

/-- One step of the division (rule R165): the leading coefficient, when it is not zero, XORs exp((g[j] + L) mod 255) into the
n coefficients that follow it; slot j = 0 becomes 0 and is left behind. -/
def reduceStep (g : List Nat) (lead : Byte) (rest : List Byte) : List Byte :=
  if lead = 0 then rest
  else
    let n := g.length - 1
    List.zipWith gfAdd (rest.take n) (g.tail.map fun e => gfExp ((e + gfLog lead) % 255)) ++ rest.drop n

/-- k steps of the division; what is left are the coefficients after the first k (rule R165). -/
def divideSteps (g : List Nat) : Nat → List Byte → List Byte
  | 0, m => m
  | _ + 1, [] => []
  | k + 1, lead :: rest => divideSteps g k (reduceStep g lead rest)

/-- rsRemainder(d, n): the n EC codewords of the data block d (rule R165). -/
def rsRemainder (d : List Byte) (n : Nat) : List Byte :=
  divideSteps (genpoly n) d.length (d ++ List.replicate n 0)

/-- GEN ← the exponents of genpoly(n), GEN_DEG ← n (rules R166, R167, R180). -/
def State.setGenerator (s : State) (n : Nat) : State :=
  { s with gen := genFile (genpoly n), genDeg := BitVec.ofNat 5 n }

/-- GENPOLY's effect (rule R166); an argument outside 1..30 is E_ILLEGAL INFO 3 (rule R111). -/
def genpolyEffect (n : Byte) (s : State) : Effect :=
  if ecCountLegal n then .ok (s.setGenerator n.toNat) else .error ⟨.illegal, 3⟩

/-- GENPOLY n (rule R166). -/
def execGenpoly (n : Byte) (s : State) : Host.Outcome State Fault Refusal :=
  s.finish Opcode.genpoly.code (genpolyEffect n s)

/-- The EC codewords RSENC n computes from RSBUF[0..RS_K−1] (rule R167). -/
def rsencCodewords (s : State) (n : Nat) : List Byte :=
  rsRemainder (firstBytes s.rsbufByte s.rsK.toNat) n

/-- RSENC's effect (rule R167): E_ILLEGAL INFO 3 for n outside 1..30, INFO 4 for RS_K + n > 255 (rule R111); RSEC[0..n−1]
takes the EC codewords and RSEC[n..31] 0. -/
def rsencEffect (n : Byte) (s : State) : Effect :=
  if !ecCountLegal n then .error ⟨.illegal, 3⟩
  else if 255 < s.rsK.toNat + n.toNat then .error ⟨.illegal, 4⟩
  else
    .ok (State.setGenerator
      { s with
        rsec := s.rsec.commit (writesFrom 0
          (rsencCodewords s n.toNat ++ List.replicate (rsecCap - n.toNat) 0)) }
      n.toNat)

/-- RSENC n (rule R167). -/
def execRsenc (n : Byte) (s : State) : Host.Outcome State Fault Refusal :=
  s.finish Opcode.rsenc.code (rsencEffect n s)

end Sys2Proof.Machine
end

