-- ==== Sys2Proof/Machine/Interleave.lean ====
section
/-! DEFINITION. INTERLEAVE: block split, per-block Reed–Solomon, interleaving (42_interleave.md). -/

namespace Sys2Proof.Machine

open Sys2Proof.Config

/-- n blocks of k codewords each, in order. -/
def splitBlocks : Nat → Nat → List Byte → List (List Byte)
  | 0, _, _ => []
  | n + 1, k, d => d.take k :: splitBlocks n k (d.drop k)

/-- blocks(d, n1, k1, n2, k2): group 1, then group 2 (rule R181). -/
def blocksOf (p : Plan) (d : List Byte) : List (List Byte) :=
  splitBlocks p.n1 p.k1 d ++ splitBlocks p.n2 p.k2 (d.drop (p.n1 * p.k1))

/-- Column by column, the codeword at each index from every block that has one: index < length (rule R183, 90_conflicts.md
C6). -/
def interleaveColumns (columns : Nat) (blocks : List (List Byte)) : List Byte :=
  (List.range columns).flatMap fun i => blocks.filterMap fun b => b[i]?

/-- The EC codewords of every block (rule R182). -/
def blockEc (ec : Nat) (blocks : List (List Byte)) : List (List Byte) :=
  blocks.map fun b => rsRemainder b ec

/-- out = interleaveData(blk) ++ interleaveEC(ecw) (rules R180, R183). -/
def interleavedCodewords (p : Plan) (d : List Byte) : List Byte :=
  interleaveColumns (max p.k1 p.k2) (blocksOf p d) ++ interleaveColumns p.ec (blockEc p.ec (blocksOf p d))

/-- What INTERLEAVE computes: the bytes of the stream, its length in bits, and the degree of the generator. -/
structure Interleaved where
  bytes  : List Byte
  bits   : Nat
  degree : Nat
  deriving DecidableEq, Repr

/-- The checks and the computation of INTERLEAVE, in the order of rule R180, after the version check. -/
def interleaveCompute (s : State) (v : Nat) : Except Raised Interleaved :=
  if !s.dcwValid then .error ⟨.sequence, 1⟩
  else
    let p := refPlan s.params.refdata s.level v
    if !planOk p then .error ⟨.refdata, 1⟩
    else
      let rem := refRemainderBits s.params.refdata v
      let len := streamLength p rem
      if 8 * streamCap < len then .error ⟨.refdata, 3⟩
      else
        let out := interleavedCodewords p (firstBytes s.dcwByte (planData p))
        .ok ⟨bytesOfBits (bytesFor len) (bitsOfBytes out ++ zeroBits rem), len, p.ec⟩

/-- INTERLEAVE's commit (rule R180). -/
def interleaveCommit (s : State) (r : Interleaved) : State :=
  State.setGenerator
    { s with
      stream := s.stream.commit (writesFrom 0 r.bytes)
      streamBits := BitVec.ofNat 16 r.bits
      streamValid := true }
    r.degree

/-- INTERLEAVE as a command or a stage of RUN (rule R180). -/
def interleaveEffect (s : State) : Effect :=
  s.withVersion fun v =>
    match interleaveCompute s v with
    | .error r => .error r
    | .ok r => .ok (interleaveCommit s r)

/-- INTERLEAVE (rule R180). -/
def execInterleave (s : State) : Host.Outcome State Fault Refusal :=
  s.finish Opcode.interleave.code (interleaveEffect s)

end Sys2Proof.Machine
end

