-- ==== Sys2Proof/Machine/Mask.lean ====
section
/-! DEFINITION. The mask engine: PENALTY, MASKSEL and MASKAPPLY (44_mask.md). -/

namespace Sys2Proof.Machine

open Sys2Proof.Config

/-! ### Colours and masks -/

/-- A cell's colour for scoring (rule R220). -/
inductive Colour where
  | dark
  | light
  deriving DecidableEq, Repr

/-- The effective colour of a cell code (rule R220): none for Reserved (and for Empty, 6 and 7, which fault before scoring). -/
def effColour (x : CellCode) : Option Colour :=
  if x == foregroundCell || x == patternForegroundCell then some .dark
  else if x == backgroundCell || x == patternBackgroundCell then some .light
  else none

/-- pred_m(i, j) (rule R221). -/
def maskPred (m i j : Nat) : Bool :=
  match m with
  | 0 => (i + j) % 2 == 0
  | 1 => i % 2 == 0
  | 2 => j % 3 == 0
  | 3 => (i + j) % 3 == 0
  | 4 => (i / 2 + j / 3) % 2 == 0
  | 5 => (i * j) % 2 + (i * j) % 3 == 0
  | 6 => ((i * j) % 2 + (i * j) % 3) % 2 == 0
  | _ => ((i + j) % 2 + (i * j) % 3) % 2 == 0

/-- Background ↔ Foreground, every other code unchanged (rule R222). -/
def flipData (x : CellCode) : CellCode :=
  if x == backgroundCell then foregroundCell else if x == foregroundCell then backgroundCell else x

/-- applyMask(M, m) on the N × N area (rule R222). -/
def applyMask (n m : Nat) (w : Matrix) : Matrix := fun i j =>
  if Nat.blt i n && Nat.blt j n && maskPred m i j then flipData (w i j) else w i j

/-! ### The penalty rules -/

/-- E(i, j) = eff(M[i][j]) (44_mask.md section 2). -/
abbrev Colours := Nat → Nat → Option Colour

/-- The 2N lines: every row, then every column (44_mask.md section 2). -/
def linesOf (n : Nat) (e : Colours) : List (List (Option Colour)) :=
  ((List.range n).map fun i => (List.range n).map fun j => e i j) ++
    ((List.range n).map fun j => (List.range n).map fun i => e i j)

/-- A run of ℓ ≥ 5 cells of one colour adds ℓ − 2; a run of colourless cells adds nothing (rule R223). -/
def runScore (colour : Option Colour) (len : Nat) : Nat :=
  if colour.isSome && Nat.ble 5 len then len - 2 else 0

/-- P1 of one line, with the run so far: its colour and length (rule R223). -/
def runPenalty : Option Colour → Nat → List (Option Colour) → Nat
  | colour, len, [] => runScore colour len
  | colour, len, x :: rest =>
    if x = colour then runPenalty colour (len + 1) rest
    else runScore colour len + runPenalty x 1 rest

/-- P1, runs (rule R223). -/
def penaltyRuns (n : Nat) (e : Colours) : Nat := ((linesOf n e).map (runPenalty none 0)).sum

/-- A 2 × 2 window of one colour adds 3 (rule R224). -/
def blockPenalty (e : Colours) (i j : Nat) : Nat :=
  if (e i j).isSome && e i (j + 1) == e i j && e (i + 1) j == e i j && e (i + 1) (j + 1) == e i j then 3 else 0

/-- P2, blocks (rule R224). -/
def penaltyBlocks (n : Nat) (e : Colours) : Nat :=
  ((List.range (n - 1)).map fun i => ((List.range (n - 1)).map fun j => blockPenalty e i j).sum).sum

/-- The colours of a pattern of bits: Dark = 1, Light = 0 (rule R225). -/
def patternOf (bits : List Nat) : List (Option Colour) :=
  bits.map fun b => some (if b = 1 then .dark else .light)

/-- PAT = 1 0 1 1 1 0 1 0 0 0 0 (rule R225). -/
def finderLike : List (Option Colour) := patternOf [1, 0, 1, 1, 1, 0, 1, 0, 0, 0, 0]

/-- PAT2: the complement of PAT, or its reverse (rule R225). -/
def finderLike2 : P3Second → List (Option Colour)
  | .complement => patternOf [0, 1, 0, 0, 0, 1, 0, 1, 1, 1, 1]
  | .reverse => patternOf [0, 0, 0, 0, 1, 0, 1, 1, 1, 0, 1]

/-- P3 of one line: 40 for every start whose 11 cells are PAT or PAT2; fewer than 11 cells match neither (rule R225). -/
def windowPenalty (p3 : P3Second) : List (Option Colour) → Nat
  | [] => 0
  | x :: rest =>
    (if (x :: rest).take 11 == finderLike || (x :: rest).take 11 == finderLike2 p3 then 40 else 0) +
      windowPenalty p3 rest

/-- P3, finder-like windows (rule R225). -/
def penaltyWindows (p3 : P3Second) (n : Nat) (e : Colours) : Nat :=
  ((linesOf n e).map (windowPenalty p3)).sum

/-- The number of Dark cells of N × N (rule R226). -/
def darkCount (n : Nat) (e : Colours) : Nat := (cellsOf n).countP fun p => e p.1 p.2 == some .dark

/-- 10·min(|f − 10|, |f − 9|) with f = pct div 5 (rule R226). -/
def balanceScore (pct : Nat) : Nat :=
  let f := pct / 5
  10 * min ((f - 10) + (10 - f)) ((f - 9) + (9 - f))

/-- P4, balance (rule R226): pct = (100·dark) div N². -/
def penaltyBalance (n : Nat) (e : Colours) : Nat := balanceScore (100 * darkCount n e / (n * n))

/-- score(M) = (P1, P2, P3, P4) (rule R228). -/
structure Score where
  p1 : Nat
  p2 : Nat
  p3 : Nat
  p4 : Nat
  deriving DecidableEq, Repr

/-- total(M) = P1 + P2 + P3 + P4 (rule R228). -/
def Score.total (x : Score) : Nat := x.p1 + x.p2 + x.p3 + x.p4

/-- score(M) over the N × N area (rules R223 to R228). -/
def scoreOf (p3 : P3Second) (n : Nat) (m : Matrix) : Score :=
  let e : Colours := fun i j => effColour (m i j)
  ⟨penaltyRuns n e, penaltyBlocks n e, penaltyWindows p3 n e, penaltyBalance n e⟩

/-! ### The commands -/

/-- PEN1..PEN4 and PEN_TOTAL ← a score (rules R40, R229, R230). -/
def State.setPenalties (s : State) (x : Score) : State :=
  { s with
    pen1 := BitVec.ofNat 32 x.p1, pen2 := BitVec.ofNat 32 x.p2, pen3 := BitVec.ofNat 32 x.p3
    pen4 := BitVec.ofNat 32 x.p4, penTotal := BitVec.ofNat 32 x.total }

/-- The matrix PENALTY m scores: MATRIX as it is for 0xFF, else its candidate under mask m (rule R229). -/
def penaltyMatrix (n : Nat) (m : Byte) (w : Matrix) : Matrix :=
  if m = 0xFF then w else applyMask n m.toNat w

/-- PENALTY's effect (rule R229); an argument outside 0..7 and 0xFF is E_ILLEGAL INFO 3 (rule R111). -/
def penaltyEffect (m : Byte) (s : State) : Effect :=
  if !penaltyArgLegal m then .error ⟨.illegal, 3⟩
  else
    s.withVersion fun v =>
      s.withMatrix (sideOf v) fun w =>
        withColours (sideOf v) w
          (.ok (s.setPenalties (scoreOf s.params.p3Second (sideOf v) (penaltyMatrix (sideOf v) m w))))

/-- PENALTY m (rule R229). -/
def execPenalty (m : Byte) (s : State) : Host.Outcome State Fault Refusal :=
  s.finish Opcode.penalty.code (penaltyEffect m s)

/-- A mask index with the score of its candidate. -/
structure Candidate where
  mask  : Nat
  score : Score
  deriving DecidableEq, Repr

/-- The candidate of mask m (rules R222, R230). -/
def candidate (p3 : P3Second) (n : Nat) (w : Matrix) (m : Nat) : Candidate :=
  ⟨m, scoreOf p3 n (applyMask n m w)⟩

/-- One comparison against the running best: strictly less wins, so ties keep the lower index (rule R231). -/
def better (best c : Candidate) : Candidate := if c.score.total < best.score.total then c else best

/-- What MASKSEL finds: the selected candidate and the eight totals t[0..7]. -/
structure Selection where
  best   : Candidate
  totals : List Nat
  deriving DecidableEq, Repr

/-- The scan of MASKSEL in index order; the running best starts above every total, so mask 0 is taken first (rules R230,
R231). -/
def selectMask (p3 : P3Second) (n : Nat) (w : Matrix) : Selection :=
  let first := candidate p3 n w 0
  let later := [1, 2, 3, 4, 5, 6, 7].map (candidate p3 n w)
  ⟨later.foldl better first, (first :: later).map fun c => c.score.total⟩

/-- MATRIX ← applyMask(MATRIX, m), MASK_SEL ← m, MASK_VALID ← 1 (rules R230, R232); `w` is MATRIX. -/
def State.maskMatrix (s : State) (n m : Nat) (w : Matrix) : State :=
  { s.setMatrixN n w (applyMask n m w) with maskSel := BitVec.ofNat 3 m, maskValid := true }

/-- PENMASK[m] ← t[m] (rule R230). -/
def State.setMaskTotals (s : State) (totals : List Nat) : State :=
  { s with penMask := Vector.ofFn fun m => BitVec.ofNat 32 (totals.getD m.val 0) }

/-- MASKSEL's commit (rule R230). -/
def maskselCommit (s : State) (n : Nat) (w : Matrix) (x : Selection) : State :=
  ((s.maskMatrix n x.best.mask w).setPenalties x.best.score).setMaskTotals x.totals

/-- MASKSEL as a command or a stage of RUN (rule R230). -/
def maskselEffect (s : State) : Effect :=
  s.withVersion fun v =>
    s.withMatrix (sideOf v) fun w =>
      withColours (sideOf v) w
        (.ok (maskselCommit s (sideOf v) w (selectMask s.params.p3Second (sideOf v) w)))

/-- MASKSEL (rule R230). -/
def execMasksel (s : State) : Host.Outcome State Fault Refusal := s.finish Opcode.masksel.code (maskselEffect s)

/-- MASKAPPLY's effect (rule R232); an argument above 7 is E_ILLEGAL INFO 3 (rule R111). -/
def maskapplyEffect (m : Byte) (s : State) : Effect :=
  if !maskIndexLegal m then .error ⟨.illegal, 3⟩
  else
    s.withVersion fun v =>
      s.withMatrix (sideOf v) fun w =>
        withColours (sideOf v) w (.ok (s.maskMatrix (sideOf v) m.toNat w))

/-- MASKAPPLY m (rule R232). -/
def execMaskapply (m : Byte) (s : State) : Host.Outcome State Fault Refusal :=
  s.finish Opcode.maskapply.code (maskapplyEffect m s)

end Sys2Proof.Machine
end

