-- ==== Sys2Proof/Machine/MatrixBuilder.lean ====
section
/-! DEFINITION. The symbol matrix builder: FUNCPAT and PLACE (43_matrix.md). A step of FUNCPAT is a function from the matrix
so far to the next one; a later step overwrites an earlier one where they share a cell (rule R190). -/

namespace Sys2Proof.Machine

open Sys2Proof.Config

/-- |a − b|. -/
def absDiff (a b : Nat) : Nat := (a - b) + (b - a)

/-- lo ≤ x ≤ hi. -/
def within (lo x hi : Nat) : Bool := Nat.ble lo x && Nat.ble x hi

/-! ### FUNCPAT's steps -/

/-- The finder with top-left cell (r0, c0) (rule R192). -/
def finder (r0 c0 : Nat) (w : Matrix) : Matrix := fun r c =>
  if within r0 r (r0 + 6) && within c0 c (c0 + 6) then
    if max (absDiff (r - r0) 3) (absDiff (c - c0) 3) == 2 then patternBackgroundCell else patternForegroundCell
  else w r c

/-- The finders, top-left, top-right, bottom-left (rule R193). -/
def finders (n : Nat) (w : Matrix) : Matrix :=
  finder (n - 7) 0 (finder 0 (n - 7) (finder 0 0 w))

/-- The separators: 15 cells beside each finder (rule R194). -/
def separators (n : Nat) (w : Matrix) : Matrix := fun r c =>
  if (r == 7 && within 0 c 7) || (c == 7 && within 0 r 7) ||
      (r == 7 && within (n - 8) c (n - 1)) || (c == n - 8 && within 0 r 7) ||
      (r == n - 8 && within 0 c 7) || (c == 7 && within (n - 8) r (n - 1))
  then patternBackgroundCell
  else w r c

/-- The alignment pattern with centre (r0, c0); all 25 cells are written (rule R195). -/
def alignmentPattern (w : Matrix) (p : Nat × Nat) : Matrix := fun r c =>
  if Nat.ble (absDiff r p.1) 2 && Nat.ble (absDiff c p.2) 2 then
    if max (absDiff r p.1) (absDiff c p.2) == 1 then patternBackgroundCell else patternForegroundCell
  else w r c

/-- The format areas: 15 cells by the top-left finder (rule R196), 15 by the other two (rule R197). -/
def reserveFormat (n : Nat) (w : Matrix) : Matrix := fun r c =>
  if (r == 8 && (within 0 c 5 || within 7 c 8)) || (c == 8 && (within 0 r 5 || r == 7)) ||
      (r == 8 && within (n - 8) c (n - 1)) || (c == 8 && within (n - 7) r (n - 1))
  then reservedCell
  else w r c

/-- The dark module at (N − 8, 8) (rule R198). -/
def darkModule (n : Nat) (w : Matrix) : Matrix := fun r c =>
  if r == n - 8 && c == 8 then patternForegroundCell else w r c

/-- The version areas, for v ≥ 7 (rule R199). -/
def reserveVersion (v n : Nat) (w : Matrix) : Matrix := fun r c =>
  if Nat.ble 7 v &&
      ((within 0 r 5 && within (n - 11) c (n - 9)) || (within (n - 11) r (n - 9) && within 0 c 5))
  then reservedCell
  else w r c

/-- The timing patterns along row 6 and column 6 (rule R200). -/
def timing (n : Nat) (w : Matrix) : Matrix := fun r c =>
  if r == 6 && within 8 c (n - 9) then
    if c % 2 == 0 then patternForegroundCell else patternBackgroundCell
  else if c == 6 && within 8 r (n - 9) then
    if r % 2 == 0 then patternForegroundCell else patternBackgroundCell
  else w r c

/-- The matrix FUNCPAT builds for version v and the centre pairs (rules R190 to R200). -/
def functionPatterns (v : Nat) (pairs : List (Nat × Nat)) : Matrix :=
  let n := sideOf v
  timing n (reserveVersion v n (darkModule n (reserveFormat n
    (pairs.foldl alignmentPattern (separators n (finders n fun _ _ => emptyCell))))))

/-- FUNCPAT's commit (rules R190, R202). -/
def funcpatCommit (s : State) (w : Matrix) : State := { s.setWholeMatrix w with maskValid := false }

/-- FUNCPAT as a command or a stage of RUN (rules R190, R202). -/
def funcpatEffect (s : State) : Effect :=
  s.withVersion fun v =>
    if !(refAlignmentPairs s.params.refdata v).all (centreOk (sideOf v)) then .error ⟨.refdata, 2⟩
    else .ok (funcpatCommit s (functionPatterns v (refAlignmentPairs s.params.refdata v)))

/-- FUNCPAT (rule R190). -/
def execFuncpat (s : State) : Host.Outcome State Fault Refusal := s.finish Opcode.funcpat.code (funcpatEffect s)

/-! ### PLACE -/

/-- The right columns of the column pairs, right to left from `right`: column 6 is skipped (rule R208). At most `fuel`
pairs. -/
def pairColumns : Nat → Nat → List Nat
  | 0, _ => []
  | fuel + 1, right =>
    if right = 0 then []
    else if right = 6 then 5 :: pairColumns fuel 3
    else right :: pairColumns fuel (right - 2)

/-- The cells of one column pair, walked upward or downward, the right column before the left (rule R208). -/
def walkPair (n : Nat) (up : Bool) (right : Nat) : List (Nat × Nat) :=
  (List.range n).flatMap fun t =>
    let r := if up then n - 1 - t else t
    [(r, right), (r, right - 1)]

/-- The column pairs walked upward and downward in turn. -/
def walkPairs (n : Nat) : Bool → List Nat → List (Nat × Nat)
  | _, [] => []
  | up, right :: rest => walkPair n up right ++ walkPairs n (!up) rest

/-- order(N) (rule R208). -/
def placeOrder (n : Nat) : List (Nat × Nat) := walkPairs n true (pairColumns n (n - 1))

/-- The number of Empty cells in N × N (rule R206). -/
def emptyCount (n : Nat) (m : Matrix) : Nat := (cellsOf n).countP fun p => m p.1 p.2 == emptyCell

/-- Stream bit 1 gives Foreground, bit 0 Background (rule R207). -/
def bitCell (b : Bool) : CellCode := if b then foregroundCell else backgroundCell

/-- The cells PLACE writes: the k-th Empty cell in traversal order takes bit(k) (rules R205, R207). -/
def placements (n : Nat) (m : Matrix) (bits : Bits) : List (Nat × CellCode) :=
  List.zipWith (fun p b => (cellIndex p.1 p.2, bitCell b))
    ((placeOrder n).filter fun p => m p.1 p.2 == emptyCell) bits

/-- PLACE's commit (rules R205, R209). -/
def placeCommit (s : State) (n : Nat) (m : Matrix) : State :=
  { s with
    matrix := s.matrix.commit (placements n m s.streamBitString)
    maskValid := false }

/-- PLACE as a command or a stage of RUN (rules R205, R209). -/
def placeEffect (s : State) : Effect :=
  s.withVersion fun v =>
    if !s.streamValid then .error ⟨.sequence, 2⟩
    else
      s.withMatrix (sideOf v) fun m =>
        if emptyCount (sideOf v) m ≠ s.streamBits.toNat then
          .error ⟨.placement, BitVec.ofNat 16 (emptyCount (sideOf v) m)⟩
        else .ok (placeCommit s (sideOf v) m)

/-- PLACE (rule R205). -/
def execPlace (s : State) : Host.Outcome State Fault Refusal := s.finish Opcode.place.code (placeEffect s)

end Sys2Proof.Machine
end

