-- ==== Sys2Proof/Machine/Pack.lean ====
section
/-! DEFINITION. PACK: the bit-mode packer and the codeword assembler (40_pack.md). -/

namespace Sys2Proof.Machine

open Sys2Proof.Config

/-- `legal(mode, b)` (rule R131). -/
def charLegal (ref : RefData) : PackMode → Byte → Bool
  | .numeric, b => decide (0x30 ≤ b.toNat) && decide (b.toNat ≤ 0x39)
  | .alphanumeric, b => (refAlnumValue ref b).isSome
  | .byte, _ => true

/-- header(mode, v, L) = bin_4(mode indicator) ++ bin_w(L) (rules R132, R133). -/
def packHeader (ref : RefData) (mode : PackMode) (v len : Nat) : Bits :=
  bin 4 (refModeIndicator ref mode).toNat ++ bin (refCcWidth ref mode (tierOf v)) len

/-- The value of a digit's byte (rule R134). -/
def digitValue (b : Byte) : Nat := b.toNat - 0x30

/-- numeric(b): groups of three digits from the left in 10 bits, a last group of two in 7 and of one in 4 (rule R134). -/
def numericBits : List Byte → Bits
  | [] => []
  | [a] => bin 4 (digitValue a)
  | [a, b] => bin 7 (10 * digitValue a + digitValue b)
  | a :: b :: c :: rest => bin 10 (100 * digitValue a + 10 * digitValue b + digitValue c) ++ numericBits rest

/-- alnum(b) over the characters' values: pairs in 11 bits, a last single one in 6 (rule R135). -/
def alnumBits : List (Fin 45) → Bits
  | [] => []
  | [x] => bin 6 x.val
  | x :: y :: rest => bin 11 (45 * x.val + y.val) ++ alnumBits rest

/-- data(mode, b) (rule R137); PACK forms it only when every character is legal, so each alphanumeric one has a value. -/
def packData (ref : RefData) : PackMode → List Byte → Bits
  | .numeric, bs => numericBits bs
  | .alphanumeric, bs => alnumBits (bs.filterMap (refAlnumValue ref))
  | .byte, bs => bitsOfBytes bs

/-- terminate(s, cap): up to 4 zero bits, never beyond cap (rule R139). -/
def terminate (s : Bits) (cap : Nat) : Bits := s ++ zeroBits (min 4 (cap - s.length))

/-- Zero bits up to the next multiple of 8 (rule R140). -/
def alignByte (s : Bits) : Bits := s ++ zeroBits ((8 - s.length % 8) % 8)

/-- n pad bytes, the j-th being 0xEC for even j and 0x11 for odd j (rule R141). -/
def padBits (n : Nat) : Bits := bitsOfBytes ((List.range n).map padByte)

/-- pad(s, cap): byte alignment, then pad bytes until the length is cap (rules R140, R141). -/
def padTo (s : Bits) (cap : Nat) : Bits :=
  alignByte s ++ padBits ((cap - (alignByte s).length) / 8)

/-- What PACK computes: the data codewords and DBITS. -/
structure Packed where
  codewords : List Byte
  dbits     : Nat
  deriving DecidableEq, Repr

/-- The checks and the computation of PACK, in the order of rule R130, after the version check. -/
def packCompute (s : State) (v : Nat) : Except Raised Packed :=
  match packMode s.mode with
  | none => .error ⟨.config, 2⟩
  | some mode =>
    if msgCap < s.msgLen.toNat then .error ⟨.overflow, 0⟩
    else
      match (firstBytes s.msgByte s.msgLen.toNat).findIdx? fun b => !charLegal s.params.refdata mode b with
      | some i => .error ⟨.charset, BitVec.ofNat 16 i⟩
      | none =>
        if !planOk (refPlan s.params.refdata s.level v) then .error ⟨.refdata, 1⟩
        else if 2 ^ refCcWidth s.params.refdata mode (tierOf v) ≤ s.msgLen.toNat then .error ⟨.overflow, 1⟩
        else
          let str := packHeader s.params.refdata mode v s.msgLen.toNat ++
            packData s.params.refdata mode (firstBytes s.msgByte s.msgLen.toNat)
          let d := planData (refPlan s.params.refdata s.level v)
          if 8 * d < str.length then .error ⟨.overflow, 2⟩
          else .ok ⟨bytesOfBits d (padTo (terminate str (8 * d)) (8 * d)), str.length⟩

/-- PACK's commit (rule R130). -/
def packCommit (s : State) (p : Packed) : State :=
  { s with
    dcw := s.dcw.commit (writesFrom 0 p.codewords)
    dcwCount := BitVec.ofNat 12 p.codewords.length
    dbits := BitVec.ofNat 16 p.dbits
    dcwValid := true
    streamValid := false }

/-- PACK as a command or a stage of RUN (rule R130). -/
def packEffect (s : State) : Effect :=
  s.withVersion fun v =>
    match packCompute s v with
    | .error r => .error r
    | .ok p => .ok (packCommit s p)

/-- PACK (rule R130). -/
def execPack (s : State) : Host.Outcome State Fault Refusal := s.finish Opcode.pack.code (packEffect s)

end Sys2Proof.Machine
end

