-- ==== Sys2Proof/Machine/Control.lean ====
section
/-! DEFINITION. The control commands NOP, CLEAR and RUN (45_control.md). -/

namespace Sys2Proof.Machine

open Sys2Proof.Config

/-- NOP (rule R250): `commit { }`. -/
def execNop (s : State) : Host.Outcome State Fault Refusal := s.finish Opcode.nop.code (.ok s)

/-- CLEAR's commit (rule R251): the valid flags, DROPPED and the result registers become 0 and every cell Empty; CTRL, CFG,
MSG_LEN, RS_K, FAULT, MSG, DCW, STREAM, RSBUF and RSEC stand. -/
def clearResults (s : State) : State :=
  State.setWholeMatrix
    { s with
      dcwValid := false, streamValid := false, maskValid := false, dropped := false
      dbits := 0, dcwCount := 0, streamBits := 0, maskSel := 0
      pen1 := 0, pen2 := 0, pen3 := 0, pen4 := 0, penTotal := 0
      penMask := Vector.replicate 8 0, gen := Vector.replicate 31 0, genDeg := 0 }
    fun _ _ => emptyCell

/-- CLEAR (rule R251). -/
def execClear (s : State) : Host.Outcome State Fault Refusal := s.finish Opcode.clear.code (.ok (clearResults s))

/-- The opcode of RUN's stage s (rule R252): PACK, INTERLEAVE, FUNCPAT, PLACE, MASKSEL. -/
def stageOpcode (stage : Fin 5) : Opcode :=
  if stage = 0 then .pack
  else if stage = 1 then .interleave
  else if stage = 2 then .funcpat
  else if stage = 3 then .place
  else .masksel

/-- RUN's stage s executes exactly as its own command (rule R252). -/
def stageEffect (stage : Fin 5) (s : State) : Effect :=
  if stage = 0 then packEffect s
  else if stage = 1 then interleaveEffect s
  else if stage = 2 then funcpatEffect s
  else if stage = 3 then placeEffect s
  else maskselEffect s

/-- The stage index within RUN (rule R50); 0 in Idle. -/
def Seq.stage : Seq → Fin 5
  | .idle => 0
  | .exec _ stage => stage

/-- The accepted word (rule R50); RUN's own word in Idle, where no step executes RUN. -/
def Seq.word : Seq → Word
  | .idle => encode .run
  | .exec w _ => w

/-- RUN (rule R252), one stage a step: a stage that faults ends RUN with that stage's opcode in FAULT.OP, DONE stays 0 and
the stages before it stay committed; a stage that completes commits and `seq ← Exec(w, s + 1)`; the last one completes RUN. -/
def execRun (s : State) : Host.Outcome State Fault Refusal :=
  match stageEffect s.seq.stage s with
  | .error r => .next (s.raise (stageOpcode s.seq.stage).code r)
  | .ok t =>
    if s.seq.stage = 4 then .next t.complete
    else .next { t with seq := .exec s.seq.word (s.seq.stage + 1) }

end Sys2Proof.Machine
end

