-- ==== Sys2Proof/Machine/Dispatch.lean ====
section
/-! DEFINITION. One arm per command: its meaning. -/

namespace Sys2Proof.Machine

def exec (i : Instr) (s : State) : Host.Outcome State Fault Refusal :=
  match i with
  | .nop => Sys2Proof.Machine.execNop s
  | .clear => Sys2Proof.Machine.execClear s
  | .pack => Sys2Proof.Machine.execPack s
  | .genpoly n => Sys2Proof.Machine.execGenpoly n s
  | .rsenc n => Sys2Proof.Machine.execRsenc n s
  | .interleave => Sys2Proof.Machine.execInterleave s
  | .funcpat => Sys2Proof.Machine.execFuncpat s
  | .place => Sys2Proof.Machine.execPlace s
  | .penalty m => Sys2Proof.Machine.execPenalty m s
  | .masksel => Sys2Proof.Machine.execMasksel s
  | .maskapply m => Sys2Proof.Machine.execMaskapply m s
  | .run => Sys2Proof.Machine.execRun s

end Sys2Proof.Machine
end

