-- ==== Sys2Proof/Machine/Sequencer.lean ====
section
/-! DEFINITION. The sequencer's step and the order of the agents' acts (00_scope.md rule R5, 20_memory.md rules R69, R70). -/

namespace Sys2Proof.Machine

/-- The sequencer's step: Idle, it does nothing (rule R276); executing w, it decodes w and takes the fault of an illegal word
or runs the command or its next stage (rules R264, R265, R252). -/
def State.sequencerStep (s : State) : Host.Outcome State Fault Refusal :=
  match s.seq with
  | .idle => .next s
  | .exec w _ =>
    match decode w with
    | .error why => .next (s.raiseIllegal w why)
    | .ok i => exec i s

/-- One act of the outside world, or one of the sequencer's (rule R69). -/
def State.act (s : State) : Input → Host.Outcome State Fault Refusal
  | .access a => .next (s.access a)
  | .sequencer => s.sequencerStep
  | .reset _ => .next s.afterReset

/-- The next act is the first pending input; when there is none, the sequencer's step. -/
def State.nextStep (s : State) : Host.Outcome State Fault Refusal :=
  match s.inputs with
  | [] => s.sequencerStep
  | x :: rest => State.act { s with inputs := rest } x

/-- The sequencer moves next: nothing to put before pending inputs when there are none. -/
def sequencerFirst : List Input → List Input
  | [] => []
  | x :: rest => .sequencer :: x :: rest

/-- `s` as the acceptance of the command word w leaves it (rule R263), with the sequencer to move next. -/
def State.withAccepted (s : State) (w : Word) : State :=
  { s with seq := .exec w 0, done := false, fault := FaultReg.zero, inputs := sequencerFirst s.inputs }

end Sys2Proof.Machine
end

