-- ==== Sys2Proof/Machine/Step.lean ====
section
/-! DEFINITION. The step of the machine, and how a command comes to be its next one. -/

namespace Sys2Proof.Machine

/-- One step (rule R69). -/
def step (s : State) : Host.Outcome State Fault Refusal := s.nextStep

/-- `s` with the command word of the low `nbits` bits of `w` accepted, so that the next step executes it (rules R73, R263). -/
def State.withFetchWord (s : State) (nbits w : Nat) : State :=
  s.withAccepted (BitVec.ofNat 32 (w % 2 ^ nbits))

end Sys2Proof.Machine
end

