-- ==== Sys2Proof/Machine/HostSyntax.lean ====
section
/-! DEFINITION. The pseudo-instructions of host programs and their expansions into bus accesses (30_encoding.md rules R114,
R115). They are the host's, not the block's: none has an effect other than its expansion. -/

namespace Sys2Proof.Machine

open Sys2Proof.Config

/-- `OP` or `OP a` (ISSUE): WR32 CMD, (a << 8) | opcode(OP). -/
def issue (i : Instr) : List Access := [.write32 0x0010 (encode i)]

/-- One poll of `WAIT`: RD32 STATUS. -/
def waitPoll : List Access := [.read32 0x0008]

/-- `WAIT` ends when the word read from STATUS has bit 0 (BUSY) = 0. -/
def waitOver (status : Word) : Bool := !status.getLsbD 0

/-- `WRMSG "s"`: the bytes of s from address 0x1000 up, then WR32 MSG_LEN, |s|. -/
def wrmsg (bs : List Byte) : List Access :=
  (writesFrom 0x1000 bs).map (fun u => Access.write8 (BitVec.ofNat 16 u.1) u.2) ++
    [.write32 0x0018 (BitVec.ofNat 32 bs.length)]

/-- `SETCFG mode, level, v`: WR32 CFG, (v << 8) | (mode << 4) | level. -/
def setcfg (mode : Mode) (level : Level) (v : Nat) : List Access :=
  [.write32 0x0014 (BitVec.ofNat 32 (v * 256 + (modeCode mode).toNat * 16 + (levelCode level).toNat))]

/-- Accesses in order, as inputs (rule R69). -/
def accesses (as : List Access) : List Input := as.map Input.access

end Sys2Proof.Machine
end

