-- ==== Sys2Proof/Safety.lean ====
section
/-! DEFINITION. What counts as a good state and a good run, in the terms the claims use: the invariants the spec's prose
states, the conditions under which each command completes (from the order of checks in its rule), and the programs of host
acts that R253 and R234 speak of. -/

namespace Sys2Proof.Machine

open Sys2Proof.Config

/-! ### Invariants -/

/-- Every buffer's known contents are in canonical form, inside the buffer (rules R44 to R49). -/
def State.buffersCanonical (s : State) : Prop :=
  s.msg.wf msgCap ∧ s.dcw.wf dcwCap ∧ s.stream.wf streamCap ∧ s.rsbuf.wf rsbufCap ∧ s.rsec.wf rsecCap ∧
    s.matrix.wf (nMax * nMax)

/-- DONE and FAULTED are never both 1 (rule R270); while BUSY, DONE is 0 (rule R263) and FAULT.CODE is 0 (rule R296); FAULT
is 0 as a whole when its CODE is (rule R31); only RUN has a stage above 0 (rule R50). -/
structure State.Handshake (s : State) : Prop where
  doneOrFaulted : s.done = true → s.faulted = false
  busyNotDone : s.busy = true → s.done = false
  busyNotFaulted : s.busy = true → s.faulted = false
  faultWhole : s.faulted = false → s.fault = FaultReg.zero
  stageOfRun : ∀ w stage, s.seq = .exec w stage → stage ≠ 0 → decode w = .ok .run

/-- GEN holds the exponents of the generator polynomial of degree GEN_DEG, and 0 beyond them (rule R43). -/
def State.generatorCoherent (s : State) : Prop :=
  s.genDeg.toNat ≤ maxEc ∧ s.gen = genFile (genpoly s.genDeg.toNat)

/-- STATUS.DCW_VALID is 1 only when DCW[0..DCW_COUNT−1] hold the data codewords that PACK builds from the current CFG,
MSG_LEN and MSG (rule R27), with DCW_COUNT and DBITS those of that PACK. -/
def State.codewordsCurrent (s : State) : Prop :=
  s.dcwValid = true → versionLegal s.versionNat = true ∧
    ∃ p, packCompute s s.versionNat = .ok p ∧ s.dcwCount.toNat = p.codewords.length ∧ s.dbits.toNat = p.dbits ∧
      firstBytes s.dcwByte s.dcwCount.toNat = p.codewords

/-- STATUS.STREAM_VALID is 1 only when STREAM holds the interleaved stream that INTERLEAVE builds from the data codewords in
DCW (rule R28), with STREAM_BITS its length. -/
def State.streamCurrent (s : State) : Prop :=
  s.streamValid = true → s.dcwValid = true ∧ versionLegal s.versionNat = true ∧
    ∃ r, interleaveCompute s s.versionNat = .ok r ∧ s.streamBits.toNat = r.bits ∧
      firstBytes s.streamByte (bytesFor s.streamBits.toNat) = r.bytes

/-- The invariants together. -/
structure State.Inv (s : State) : Prop where
  canonical : s.buffersCanonical
  handshake : s.Handshake
  generator : s.generatorCoherent
  codewords : s.codewordsCurrent
  stream : s.streamCurrent

/-! ### When a command completes -/

/-- The string PACK assembles before the terminator (rule R130): header(mode, v, L) ++ data(mode, MSG[0..L−1]). -/
def packString (s : State) (mode : PackMode) : Bits :=
  packHeader s.params.refdata mode s.versionNat s.msgLen.toNat ++
    packData s.params.refdata mode (firstBytes s.msgByte s.msgLen.toNat)

/-- The plan of CFG.LEVEL and CFG.VERSION. -/
def configuredPlan (s : State) : Plan := refPlan s.params.refdata s.level s.versionNat

/-- N of CFG.VERSION. -/
def configuredSide (s : State) : Nat := sideOf s.versionNat

/-- The length INTERLEAVE gives the stream (rule R180). -/
def configuredStreamLength (s : State) : Nat :=
  streamLength (configuredPlan s) (refRemainderBits s.params.refdata s.versionNat)

/-- No check of PACK fails, `mode` being CFG.MODE (rule R130). -/
structure PackReady (s : State) (mode : PackMode) : Prop where
  version : 1 ≤ s.versionNat ∧ s.versionNat ≤ 40
  modePacked : packMode s.mode = some mode
  length : s.msgLen.toNat ≤ 7089
  charset : ∀ i, i < s.msgLen.toNat → charLegal s.params.refdata mode (s.msgByte i) = true
  plan : planOk (configuredPlan s) = true
  countFits : s.msgLen.toNat < 2 ^ refCcWidth s.params.refdata mode (tierOf s.versionNat)
  capacity : (packString s mode).length ≤ 8 * planData (configuredPlan s)

/-- No check of INTERLEAVE fails (rule R180). -/
structure InterleaveReady (s : State) : Prop where
  version : 1 ≤ s.versionNat ∧ s.versionNat ≤ 40
  valid : s.dcwValid = true
  plan : planOk (configuredPlan s) = true
  fits : configuredStreamLength s ≤ 8 * 3707

/-- No check of FUNCPAT fails (rule R190). -/
structure FuncpatReady (s : State) : Prop where
  version : 1 ≤ s.versionNat ∧ s.versionNat ≤ 40
  centres : ∀ p ∈ refAlignmentPairs s.params.refdata s.versionNat,
    2 ≤ p.1 ∧ 2 ≤ p.2 ∧ p.1 ≤ configuredSide s - 3 ∧ p.2 ≤ configuredSide s - 3

/-- No check of PLACE fails (rules R205, R206). -/
structure PlaceReady (s : State) : Prop where
  version : 1 ≤ s.versionNat ∧ s.versionNat ≤ 40
  valid : s.streamValid = true
  count : emptyCount (configuredSide s) s.cell = s.streamBits.toNat

/-- No check of PENALTY, MASKSEL or MASKAPPLY fails (rules R220, R267): every cell of N × N is scorable. -/
structure MaskReady (s : State) : Prop where
  version : 1 ≤ s.versionNat ∧ s.versionNat ≤ 40
  colours : ∀ r c, r < configuredSide s → c < configuredSide s →
    s.cell r c ≠ 0 ∧ s.cell r c ≠ 6 ∧ s.cell r c ≠ 7

/-! ### Programs of host acts -/

/-- The host issues a command and leaves the sequencer one step (rules R114, R115). -/
def issueAndStep (i : Instr) : List Input := accesses (issue i) ++ [.sequencer]

/-- The host issues RUN and leaves the sequencer five steps. -/
def issueRun : List Input := accesses (issue .run) ++ List.replicate 5 .sequencer

/-- The five commands of RUN's stages, one after another (rule R253). -/
def stageCommands : List Instr := [.pack, .interleave, .funcpat, .place, .masksel]

/-- The host issues the first k of them, no other act between. -/
def issueStages (k : Nat) : List Input := (stageCommands.take k).flatMap issueAndStep

/-- The block is Idle with no fault recorded: a command written to CMD is accepted (rule R263). -/
def State.ready (s : State) : Prop := s.seq = .idle ∧ s.fault = FaultReg.zero

/-- No check of RUN's stage k fails (rule R252). -/
def stageReady (stage : Fin 5) (s : State) : Prop :=
  if stage = 0 then ∃ mode, PackReady s mode
  else if stage = 1 then InterleaveReady s
  else if stage = 2 then FuncpatReady s
  else if stage = 3 then PlaceReady s
  else MaskReady s

/-! ### The spec's formulas, for holding the model's functions against them -/

/-- INFO of E_ILLEGAL for a command word, none for a legal one: rule R111 read on the numbers of the fields. -/
def illegalInfo (rsK : Nat) (w : Word) : Option (BitVec 16) :=
  let op := w.toNat % 256
  let arg := w.toNat / 256 % 256
  let rsv := w.toNat / 65536
  if ¬op ∈ [0x00, 0x01, 0x10, 0x20, 0x21, 0x22, 0x30, 0x31, 0x40, 0x41, 0x42, 0xF0] then some 0
  else if rsv ≠ 0 then some 1
  else if ¬op ∈ [0x20, 0x21, 0x40, 0x42] ∧ arg ≠ 0 then some 2
  else if ((op = 0x20 ∨ op = 0x21) ∧ (arg = 0 ∨ 30 < arg)) ∨ (op = 0x40 ∧ 8 ≤ arg ∧ arg ≤ 0xFE) ∨ (op = 0x42 ∧ 7 < arg) then
    some 3
  else if op = 0x21 ∧ 255 < rsK + arg then some 4
  else none

/-- The address of a register (10_state.md, register map summary). -/
def Reg.address : Reg → Addr
  | .id => 0x000
  | .ctrl => 0x004
  | .status => 0x008
  | .fault => 0x00C
  | .cmd => 0x010
  | .cfg => 0x014
  | .msgLen => 0x018
  | .rsK => 0x01C
  | .dbits => 0x020
  | .dcwCount => 0x024
  | .streamBits => 0x028
  | .maskSel => 0x02C
  | .pen1 => 0x030
  | .pen2 => 0x034
  | .pen3 => 0x038
  | .pen4 => 0x03C
  | .penTotal => 0x040
  | .genDeg => 0x044
  | .penMask m => BitVec.ofNat 16 (0x060 + 4 * m.val)
  | .gen j => BitVec.ofNat 16 (0x080 + 4 * j.val)

/-- The read-only registers (rule R65). -/
def Reg.readOnly (r : Reg) : Bool :=
  match r with
  | .ctrl => false
  | .status => false
  | .fault => false
  | .cmd => false
  | .cfg => false
  | .msgLen => false
  | .rsK => false
  | .id => true
  | .dbits => true
  | .dcwCount => true
  | .streamBits => true
  | .maskSel => true
  | .pen1 => true
  | .pen2 => true
  | .pen3 => true
  | .pen4 => true
  | .penTotal => true
  | .genDeg => true
  | .penMask _ => true
  | .gen _ => true

/-- The registers whose writes the busy rule drops (rule R296). -/
def Reg.busyDropped : List Reg := [.ctrl, .cfg, .msgLen, .rsK, .cmd]

/-- A backed byte of the MSG window (rule R60). -/
abbrev msgBacked (a : Addr) : Prop := 0x1000 ≤ a.toNat ∧ a.toNat ≤ 0x2BB0

/-- A backed byte of a window the host may write: MSG, RSBUF, MATRIX (rule R60). -/
abbrev hostStorable (a : Addr) : Prop :=
  msgBacked a ∨ (0x5000 ≤ a.toNat ∧ a.toNat ≤ 0x50FF) ∨ (0x8000 ≤ a.toNat ∧ a.toNat ≤ 0xFA60)

/-- The bits of the byte at a window address that are unspecified while BUSY (rule R297): all eight of a backed byte, the low
three in MATRIX (rule R63), none beyond the backed sizes (rule R60). -/
def busyFree (a : Addr) : Byte :=
  if msgBacked a ∨ (0x3000 ≤ a.toNat ∧ a.toNat ≤ 0x3B8B) ∨ (0x4000 ≤ a.toNat ∧ a.toNat ≤ 0x4E7A) ∨
      (0x5000 ≤ a.toNat ∧ a.toNat ≤ 0x511F) then 0xFF
  else if 0x8000 ≤ a.toNat ∧ a.toNat ≤ 0xFA60 then 0x07
  else 0

/-- What the host reads back of a byte it stored: a MATRIX byte keeps its bits [2:0] (rule R63). -/
def storedByte (a : Addr) (v : Byte) : Byte := if 0x8000 ≤ a.toNat then v &&& 7 else v

/-- The number a bit string writes, most significant bit first (rule R7). -/
def natOfBits (s : Bits) : Nat := s.foldl (fun acc b => 2 * acc + b.toNat) 0

/-- `cw_j(s)` = Σ_{t=0..7} s[8j+t]·2^(7−t) (rule R7). -/
def codewordAt (s : Bits) (j : Nat) : Nat :=
  ((List.range 8).map fun t => (s.getD (8 * j + t) false).toNat * 2 ^ (7 - t)).sum

/-- x times the polynomial a, modulo x⁸ + x⁴ + x³ + x² + 1 (rule R161's recurrence). -/
def timesX (a : Byte) : Byte :=
  BitVec.ofNat 8 (if 256 ≤ 2 * a.toNat then (2 * a.toNat) ^^^ 0x11D else 2 * a.toNat)

/-- The product of two polynomials over GF(2) modulo x⁸ + x⁴ + x³ + x² + 1 (rule R160): b's bits from the highest down. -/
def polynomialProduct (a b : Byte) : Byte :=
  [7, 6, 5, 4, 3, 2, 1, 0].foldl (fun acc k => timesX acc ^^^ (if b.getLsbD k then a else 0)) 0

/-- The runs rule R223 scores: maximal groups of equal neighbours in a line. -/
def lineRuns (line : List (Option Colour)) : List (List (Option Colour)) := line.splitBy (fun a b => a == b)

/-- What one group adds to P1 (rule R223). -/
def lineRunScore (run : List (Option Colour)) : Nat :=
  if 5 ≤ run.length ∧ run.head? ≠ some none then run.length - 2 else 0

/-- PAT and PAT2 as rule R225 writes them, Dark = 1 and Light = 0. -/
def windowPatterns : P3Second → List (List Nat)
  | .complement => [[1, 0, 1, 1, 1, 0, 1, 0, 0, 0, 0], [0, 1, 0, 0, 0, 1, 0, 1, 1, 1, 1]]
  | .reverse => [[1, 0, 1, 1, 1, 0, 1, 0, 0, 0, 0], [0, 0, 0, 0, 1, 0, 1, 1, 1, 0, 1]]

/-- The digit rule R225 writes for a colour; none for a colourless cell. -/
def colourDigit : Option Colour → Option Nat
  | some .dark => some 1
  | some .light => some 0
  | none => none

/-- The windows of one line that rule R225 counts. -/
def lineMatches (p3 : P3Second) (line : List (Option Colour)) : Nat :=
  ((List.range (line.length - 10)).filter fun t =>
    (windowPatterns p3).any fun pat => ((line.drop t).take 11).map colourDigit == pat.map some).length

/-- The Empty cells of N × N in the order PLACE visits them (rule R205). -/
def emptyInOrder (n : Nat) (m : Matrix) : List (Nat × Nat) := (placeOrder n).filter fun p => m p.1 p.2 == emptyCell

/-- The cells of N × N that some step of FUNCPAT writes (rules R192 to R200): the three corners with their separators and
format strips, row 6 and column 6, the 5 × 5 alignment patterns, the version areas. -/
def functionArea (v n : Nat) (pairs : List (Nat × Nat)) (r c : Nat) : Bool :=
  (decide (r ≤ 8) && decide (c ≤ 8)) || (decide (r ≤ 8) && decide (n - 8 ≤ c)) || (decide (n - 8 ≤ r) && decide (c ≤ 8)) ||
    decide (r = 6) || decide (c = 6) ||
    (pairs.any fun p => decide (p.1 ≤ r + 2 ∧ r ≤ p.1 + 2 ∧ p.2 ≤ c + 2 ∧ c ≤ p.2 + 2)) ||
    (decide (7 ≤ v) && ((decide (r ≤ 5) && decide (n - 11 ≤ c)) || (decide (n - 11 ≤ r) && decide (c ≤ 5))))

/-- The number of Empty cells after FUNCPAT for v = 1..40 (rule R210). -/
def emptyCounts : List Nat :=
  [208, 359, 567, 807, 1079, 1383, 1568, 1936, 2336, 2768, 3232, 3728, 4256, 4651] ++
  [5243, 5867, 6523, 7211, 7931, 8683, 9252, 10068, 10916, 11796, 12708, 13652, 14628, 15371] ++
  [16411, 17483, 18587, 19723, 20891, 22091, 23008, 24272, 25568, 26896, 28256, 29648]

/-- `bit(k)` of STREAM (rule R205). -/
def State.streamBit (s : State) (k : Nat) : Bool := (s.streamByte (k / 8)).getLsbD (7 - k % 8)

/-- The registers as reset leaves them (rule R290). -/
structure State.RegistersReset (s : State) : Prop where
  ctrl : s.readReg .ctrl = 0
  status : s.readReg .status = 0
  fault : s.fault = FaultReg.zero
  cfg : s.level = .low ∧ s.mode = .numeric ∧ s.version = 0
  lengths : s.msgLen = 0 ∧ s.rsK = 0
  results : s.dbits = 0 ∧ s.dcwCount = 0 ∧ s.streamBits = 0 ∧ s.maskSel = 0 ∧ s.genDeg = 0
  penalties : s.pen1 = 0 ∧ s.pen2 = 0 ∧ s.pen3 = 0 ∧ s.pen4 = 0 ∧ s.penTotal = 0
  tables : (∀ m : Fin 8, s.penMask[m] = 0) ∧ ∀ j : Fin 31, s.gen[j] = 0
  idle : s.seq = .idle
  irq : s.irq = false
  id : s.readReg .id = 0x51520007

end Sys2Proof.Machine
end

