-- ==== Sys2Proof/Certificates/Slice0/Obligations.lean ====
section
/-! DEFINITION. The statements for the provers, in the order of spec/: encoding, the step, reset, the host bus, the commands
family by family, RUN, and the invariants every step keeps. A statement about a command's end says the whole next state: what
is not named in it stands. -/

open Sys2Proof Sys2Proof.Machine Sys2Proof.Config

/-! ### Encoding -/

/-- Words written out from the patterns of rule R110 decode to the commands they stand for. -/
def Obligations.DecodeTableWords : Prop :=
  decode 0b00000000000000000000000000000000 = .ok .nop ∧
  decode 0b00000000000000000000000000000001 = .ok .clear ∧
  decode 0b00000000000000000000000000010000 = .ok .pack ∧
  decode 0b00000000000000000001111000100000 = .ok (.genpoly 30) ∧
  decode 0b00000000000000000000000100100001 = .ok (.rsenc 1) ∧
  decode 0b00000000000000000000000000100010 = .ok .interleave ∧
  decode 0b00000000000000000000000000110000 = .ok .funcpat ∧
  decode 0b00000000000000000000000000110001 = .ok .place ∧
  decode 0b00000000000000001111111101000000 = .ok (.penalty 0xFF) ∧
  decode 0b00000000000000000000000001000001 = .ok .masksel ∧
  decode 0b00000000000000000000011101000010 = .ok (.maskapply 7) ∧
  decode 0b00000000000000000000000011110000 = .ok .run

/-- Rules R110 and R112: a word is a command exactly when it is that command's encoding with its argument in range. -/
def Obligations.DecodeEncodeAgree : Prop :=
  ∀ (i : Instr) (w : Word), decode w = .ok i ↔ (i.wf = true ∧ encode i = w)

/-- Rules R111, R264: an accepted illegal word faults with E_ILLEGAL and the first reason's INFO, and writes nothing else; any
other word runs its command: with nothing before the sequencer, and when the next act is the sequencer's. -/
def Obligations.IllegalWordFaults : Prop :=
  ∀ (s : State) (w : Word) (stage : Fin 5), s.seq = .exec w stage →
    (∀ info, illegalInfo s.rsK.toNat w = some info →
      (s.inputs = [] →
        step s = .next { s with fault := ⟨.illegal, w.extractLsb' 0 8, info⟩, seq := .idle }) ∧
      ∀ rest, s.inputs = .sequencer :: rest →
        step s = .next { s with inputs := rest, fault := ⟨.illegal, w.extractLsb' 0 8, info⟩, seq := .idle }) ∧
    (illegalInfo s.rsK.toNat w = none →
      ∃ i, decode w = .ok i ∧ (s.inputs = [] → step s = exec i s) ∧
        ∀ rest, s.inputs = .sequencer :: rest → step s = exec i { s with inputs := rest })

/-! ### The step -/

/-- A step with nothing before the sequencer runs the accepted word's command; so does one whose next act is the
sequencer's (rules R50, R264). -/
def Obligations.StepRunsDecodedCommand : Prop :=
  ∀ (s : State) (w : Word) (stage : Fin 5) (i : Instr), s.seq = .exec w stage → decode w = .ok i →
    (s.inputs = [] → step s = exec i s) ∧
    ∀ rest, s.inputs = .sequencer :: rest → step s = exec i { s with inputs := rest }

/-- The acts of the host and of `rst` take effect one at a time in their order; an Idle sequencer does nothing (rules R69,
R276; `rst` at any time, rules R290, R291). That pending acts stand in a list, that a step takes its head, and that the
sequencer moves when it is empty, is the model's choice (DESIGN CHOICE, notes/assumptions/5). -/
def Obligations.StepTakesNextAct : Prop :=
  ∀ (s : State) (rest : List Input),
    (∀ a, s.inputs = .access a :: rest → step s = .next (State.access { s with inputs := rest } a)) ∧
    (∀ c, s.inputs = .reset c :: rest → step s = .next (State.afterReset { s with inputs := rest })) ∧
    (s.seq = .idle → s.inputs = [] → step s = .next s) ∧
    (s.seq = .idle → s.inputs = .sequencer :: rest → step s = .next { s with inputs := rest })

/-- Rule R10: every command and every step has an outcome that is a next state; none is refused. -/
def Obligations.EveryStepAnswersNext : Prop :=
  (∀ s : State, ∃ t, step s = .next t) ∧ ∀ (i : Instr) (s : State), ∃ t, exec i s = .next t

/-! ### Reset -/

/-- The state of reset (rule R290). Its last clause rests on notes/assumptions/1: a byte that nothing has written since
reset reads as a free value, whatever that value is. -/
def Obligations.ResetState : Prop :=
  State.reset.RegistersReset ∧
  ∀ (w : Window) (i : Nat), i < w.size →
    State.reset.windowByte w i =
      if w = .matrix then (bufferDraw State.reset.epoch (w.base + i)) &&& 7
      else bufferDraw State.reset.epoch (w.base + i)

/-- Rule R291: reset at any time leaves the registers of rule R290 and an Idle sequencer; an access that coincides with it
has no effect. The last clause is the model's form (DESIGN CHOICE, notes/assumptions/1) of rule R290's 'Buffers are unspecified
after every reset' (90_conflicts.md C12): every buffer element reads as the free value of this reset's own number, whatever
the buffers held before. -/
def Obligations.ResetAbortsCommand : Prop :=
  ∀ (s : State) (rest : List Input) (c : Option Access), s.inputs = .reset c :: rest →
    ∃ t, step s = .next t ∧ t.RegistersReset ∧ t.done = false ∧ t.fault = FaultReg.zero ∧ t.seq = .idle ∧
      step { s with inputs := .reset none :: rest } = .next t ∧
      t.inputs = rest ∧ t.params = s.params ∧ t.epoch = s.epoch + 1 ∧
      ∀ (w : Window) (i : Nat), i < w.size →
        t.windowByte w i =
          if w = .matrix then (bufferDraw (s.epoch + 1) (w.base + i)) &&& 7 else bufferDraw (s.epoch + 1) (w.base + i)

/-! ### The host bus -/

/-- Rule R64: which accesses get a bus error, and what it does. -/
def Obligations.BusErrors : Prop :=
  ∀ (s : State) (a : Addr) (b : Byte) (w : Word),
    (a.toNat < 0x100 →
      s.access (.read8 a) = { s with reply := ⟨true, 0⟩ } ∧ s.access (.write8 a b) = { s with reply := ⟨true, 0⟩ }) ∧
    (a.toNat % 4 ≠ 0 →
      s.access (.read32 a) = { s with reply := ⟨true, 0⟩ } ∧ s.access (.write32 a w) = { s with reply := ⟨true, 0⟩ }) ∧
    (0x100 ≤ a.toNat →
      (s.access (.read8 a)).reply.busError = false ∧ (s.access (.write8 a b)).reply.busError = false) ∧
    (a.toNat % 4 = 0 →
      (s.access (.read32 a)).reply.busError = false ∧ (s.access (.write32 a w)).reply.busError = false)

/-- Rule R66: reserved offsets and reserved bits read 0 and ignore writes, busy or not. -/
def Obligations.ReservedBitsAndOffsets : Prop :=
  ∀ s : State,
    (∀ r : Reg, s.readReg r &&& ~~~r.fieldBits = 0) ∧
    (∀ (r : Reg) (v v' : Word), r ≠ .cmd → v &&& r.fieldBits = v' &&& r.fieldBits →
      s.access (.write32 r.address v) = s.access (.write32 r.address v')) ∧
    ∀ (a : Addr) (v : Word), a.toNat % 4 = 0 → (0x48 ≤ a.toNat ∧ a.toNat ≤ 0x5C ∨ a.toNat = 0xFC) →
      s.access (.read32 a) = { s with reply := ⟨false, 0⟩ } ∧ s.access (.write32 a v) = { s with reply := ⟨false, 0⟩ }

/-- Rules R60, R63: what a host read outside the register block returns while the block is Idle. -/
def Obligations.WindowReads : Prop :=
  ∀ s : State, s.seq = .idle →
    (∀ a : Addr, 0x100 ≤ a.toNat →
      s.access (.read8 a) = { s with reply := ⟨false, (s.byteAt a).zeroExtend 32⟩ }) ∧
    (∀ a : Addr, 0x100 ≤ a.toNat → a.toNat % 4 = 0 →
      s.access (.read32 a) =
        { s with
          reply := ⟨false, (s.byteAt (a + 3) ++ s.byteAt (a + 2)) ++ (s.byteAt (a + 1) ++ s.byteAt a)⟩ }) ∧
    (∀ i < 7089, s.byteAt (BitVec.ofNat 16 (0x1000 + i)) = s.msgByte i) ∧
    (∀ i < 2956, s.byteAt (BitVec.ofNat 16 (0x3000 + i)) = s.dcwByte i) ∧
    (∀ i < 3707, s.byteAt (BitVec.ofNat 16 (0x4000 + i)) = s.streamByte i) ∧
    (∀ i < 256, s.byteAt (BitVec.ofNat 16 (0x5000 + i)) = s.rsbufByte i) ∧
    (∀ i < 32, s.byteAt (BitVec.ofNat 16 (0x5100 + i)) = s.rsecByte i) ∧
    (∀ r < 177, ∀ c < 177, s.byteAt (BitVec.ofNat 16 (0x8000 + 177 * r + c)) = (s.cell r c).zeroExtend 8) ∧
    ∀ a : Addr,
      a.toNat < 0x1000 ∨ (0x2BB1 ≤ a.toNat ∧ a.toNat < 0x3000) ∨ (0x3B8C ≤ a.toNat ∧ a.toNat < 0x4000) ∨
        (0x4E7B ≤ a.toNat ∧ a.toNat < 0x5000) ∨ (0x5120 ≤ a.toNat ∧ a.toNat < 0x8000) ∨ 0xFA61 ≤ a.toNat →
      s.byteAt a = 0

/-- Rules R60, R63, R27, R28: what a host write outside the register block does while the block is Idle: the backed bytes of
the MSG, RSBUF and MATRIX windows it covers are stored, every other byte stands, and a stored MSG byte invalidates DCW and
STREAM. That a write to an MSG offset beyond the backed size (0x2BB1..0x2FFF), which R60 and D47 say is ignored, leaves
DCW_VALID and STREAM_VALID standing, where R27 and R67 say 'any MSG window byte', is the model's reading (DEDUCED, unsafe,
notes/assumptions/8). -/
def Obligations.WindowWrites : Prop :=
  ∀ s : State, s.buffersCanonical → s.seq = .idle → ∀ a : Addr, 0x100 ≤ a.toNat →
    (∀ v : Byte, ∃ t, s.access (.write8 a v) = t ∧
      (∀ b : Addr, t.byteAt b = if b = a ∧ hostStorable a then storedByte a v else s.byteAt b) ∧
      t = { s with
        msg := t.msg, rsbuf := t.rsbuf, matrix := t.matrix, reply := ⟨false, 0⟩
        dcwValid := if msgBacked a then false else s.dcwValid
        streamValid := if msgBacked a then false else s.streamValid }) ∧
    (∀ v : Word, a.toNat % 4 = 0 → ∃ t, s.access (.write32 a v) = t ∧
      (∀ b : Addr, t.byteAt b =
        if a.toNat ≤ b.toNat ∧ b.toNat < a.toNat + 4 ∧ hostStorable b then
          storedByte b (v.extractLsb' (8 * (b.toNat - a.toNat)) 8)
        else s.byteAt b) ∧
      t = { s with
        msg := t.msg, rsbuf := t.rsbuf, matrix := t.matrix, reply := ⟨false, 0⟩
        dcwValid := if msgBacked a then false else s.dcwValid
        streamValid := if msgBacked a then false else s.streamValid })

/-- Rules R60, R65: a write to a read-only register, to a read-only window, to an unmapped address or beyond a buffer's
backed size is ignored, busy or not, and does not set DROPPED; CMD reads 0 while Idle. For offsets of the MSG and MATRIX
windows beyond the backed size, 'busy or not, without DROPPED' is the model's reading (DEDUCED, unsafe, notes/assumptions/8):
R60 and D47 say it of such offsets, R65 and R296 put the whole windows under the busy rule. -/
def Obligations.ReadOnlyWritesIgnored : Prop :=
  ∀ s : State,
    (∀ (r : Reg) (v : Word), r.readOnly = true → s.access (.write32 r.address v) = { s with reply := ⟨false, 0⟩ }) ∧
    (∀ (a : Addr) (v : Byte), 0x100 ≤ a.toNat → ¬hostStorable a →
      s.access (.write8 a v) = { s with reply := ⟨false, 0⟩ }) ∧
    (∀ (a : Addr) (v : Word), 0x100 ≤ a.toNat → a.toNat % 4 = 0 → ¬hostStorable a →
      s.access (.write32 a v) = { s with reply := ⟨false, 0⟩ }) ∧
    (s.seq = .idle → s.access (.read32 0x0010) = { s with reply := ⟨false, 0⟩ })

/-- Rule R296: host writes while BUSY. Its 'any byte of the MSG, RSBUF or MATRIX window' is kept for the backed bytes; that the
others are not among them is the model's reading (DEDUCED, unsafe, notes/assumptions/8). -/
def Obligations.BusyWritesDropped : Prop :=
  ∀ s : State, s.Handshake → s.seq ≠ .idle →
    (∀ r ∈ Reg.busyDropped, ∀ v : Word,
      s.access (.write32 r.address v) = { s with dropped := true, reply := ⟨false, 0⟩ }) ∧
    (∀ (a : Addr) (v : Byte), hostStorable a →
      s.access (.write8 a v) = { s with dropped := true, reply := ⟨false, 0⟩ }) ∧
    (∀ (a : Addr) (v : Word), hostStorable a → a.toNat % 4 = 0 →
      s.access (.write32 a v) = { s with dropped := true, reply := ⟨false, 0⟩ }) ∧
    (∀ v : Word, s.access (.write32 0x0008 v) =
      { s with done := s.done && !v.getLsbD 1, dropped := s.dropped && !v.getLsbD 5, reply := ⟨false, 0⟩ }) ∧
    (∀ v : Word, s.fault.code = .none ∧ s.access (.write32 0x000C v) = { s with reply := ⟨false, 0⟩ }) ∧
    (∀ (r : Reg) (v : Word), r.readOnly = true → s.access (.write32 r.address v) = { s with reply := ⟨false, 0⟩ }) ∧
    (∀ (a : Addr) (v : Byte), (0x3000 ≤ a.toNat ∧ a.toNat < 0x5000) ∨ (0x5100 ≤ a.toNat ∧ a.toNat < 0x5120) →
      s.access (.write8 a v) = { s with reply := ⟨false, 0⟩ }) ∧
    ∀ (a : Addr) (v : Word), (0x3000 ≤ a.toNat ∧ a.toNat < 0x5000) ∨ (0x5100 ≤ a.toNat ∧ a.toNat < 0x5120) →
      a.toNat % 4 = 0 → s.access (.write32 a v) = { s with reply := ⟨false, 0⟩ }

/-- Rules R67, R297, R60 and the register map of 10_state.md section 1: while Idle each register reads at its address as its
value; a host read changes nothing of the block (only the reply, and the model's count of free values); while BUSY seven
registers read as they are, and every other register and every backed window byte reads as a free value; window offsets beyond
a buffer and unmapped addresses read 0 (rule R60). That CMD reads 0 (R32, R65), and reserved register bits (R66) and bits [7:3]
of a MATRIX byte (R63) read 0, while BUSY as well is the model's reading of R297 beside those rules (DEDUCED,
notes/assumptions/2). -/
def Obligations.HostReads : Prop :=
  ∀ s : State,
    (s.seq = .idle → ∀ r : Reg, s.access (.read32 r.address) = { s with reply := ⟨false, s.readReg r⟩ }) ∧
    (∀ a : Addr, ∃ reply draws, s.access (.read8 a) = { s with reply := reply, draws := draws }) ∧
    (∀ a : Addr, ∃ reply draws, s.access (.read32 a) = { s with reply := reply, draws := draws }) ∧
    (s.seq ≠ .idle →
      (∀ r : Reg, r ∈ [Reg.id, .ctrl, .status, .fault, .cfg, .msgLen, .rsK] →
        s.access (.read32 r.address) = { s with reply := ⟨false, s.readReg r⟩ }) ∧
      s.access (.read32 0x0010) = { s with reply := ⟨false, 0⟩ } ∧
      (∀ r : Reg, r ∉ [Reg.id, .ctrl, .status, .fault, .cmd, .cfg, .msgLen, .rsK] →
        s.access (.read32 r.address) =
          { s with reply := ⟨false, busyReadDraw s.draws &&& r.fieldBits⟩, draws := s.draws + 1 }) ∧
      (∀ a : Addr, (0x1000 ≤ a.toNat ∧ a.toNat < 0x5120) ∨ 0x8000 ≤ a.toNat → a.toNat % 4 = 0 →
        s.access (.read32 a) =
          { s with
            reply := ⟨false, busyReadDraw s.draws &&&
              ((busyFree (a + 3) ++ busyFree (a + 2)) ++ (busyFree (a + 1) ++ busyFree a))⟩
            draws := s.draws + 1 }) ∧
      (∀ a : Addr, (0x1000 ≤ a.toNat ∧ a.toNat < 0x5120) ∨ 0x8000 ≤ a.toNat →
        s.access (.read8 a) =
          { s with reply := ⟨false, busyReadDraw s.draws &&& (busyFree a).zeroExtend 32⟩, draws := s.draws + 1 }) ∧
      ∀ a : Addr, (0x100 ≤ a.toNat ∧ a.toNat < 0x1000) ∨ (0x5120 ≤ a.toNat ∧ a.toNat < 0x8000) →
        s.access (.read8 a) = { s with reply := ⟨false, 0⟩ } ∧
        (a.toNat % 4 = 0 → s.access (.read32 a) = { s with reply := ⟨false, 0⟩ }))

/-- Rules R23, R26: the STATUS register. -/
def Obligations.StatusRegister : Prop :=
  State.reset.readReg .status = 0 ∧
  ∀ s : State,
    ((s.readReg .status).getLsbD 0 = true ↔ s.seq ≠ .idle) ∧
    (s.readReg .status).getLsbD 1 = s.done ∧
    ((s.readReg .status).getLsbD 2 = true ↔ s.fault.code ≠ .none) ∧
    (s.readReg .status).getLsbD 3 = s.dcwValid ∧
    (s.readReg .status).getLsbD 4 = s.streamValid ∧
    (s.readReg .status).getLsbD 5 = s.dropped ∧
    (s.readReg .status).getLsbD 6 = s.maskValid ∧
    (∀ k, 7 ≤ k → (s.readReg .status).getLsbD k = false) ∧
    s.access (.read32 0x0008) = { s with reply := ⟨false, s.readReg .status⟩ } ∧
    ∀ v : Word, s.access (.write32 0x0008 v) =
      { s with done := s.done && !v.getLsbD 1, dropped := s.dropped && !v.getLsbD 5, reply := ⟨false, 0⟩ }

/-- Rules R31, R261, R268: the FAULT register and the nine numbers of its CODE; only a host write of it, or a command that faults, changes it. -/
def Obligations.FaultRegister : Prop :=
  State.reset.readReg .fault = 0 ∧
  ∀ s : State,
    (∀ p ∈ [(FaultCode.none, 0), (.illegal, 1), (.config, 2), (.charset, 3), (.overflow, 4), (.sequence, 5),
        (.placement, 6), (.cell, 7), (.refdata, 8)],
      (s.fault.code = p.1 ↔ ((s.readReg .fault).extractLsb' 0 4).toNat = p.2)) ∧
    (s.readReg .fault).extractLsb' 4 4 = 0 ∧
    (s.readReg .fault).extractLsb' 8 8 = s.fault.op ∧ (s.readReg .fault).extractLsb' 16 16 = s.fault.info ∧
    (∀ v : Word, s.access (.write32 0x000C v) = { s with fault := FaultReg.zero, reply := ⟨false, 0⟩ }) ∧
    (∀ v : Word, (s.access (.write32 0x000C v)).readReg .fault = 0) ∧
    (∀ v w : Word, s.seq = .idle →
      (s.access (.write32 0x000C v)).access (.write32 0x0010 w) =
        { s with fault := FaultReg.zero, seq := .exec w 0, done := false, reply := ⟨false, 0⟩ }) ∧
    (∀ w : Word, s.fault.code ≠ .none →
      s.access (.write32 0x0010 w) = { s with dropped := true, reply := ⟨false, 0⟩ }) ∧
    (∀ a : Access, (∀ v, a ≠ .write32 0x000C v) → (s.access a).fault = s.fault) ∧
    ∀ (i : Instr) (t : State), exec i s = .next t →
      t.fault = s.fault ∨ (t.fault.code ≠ .none ∧ t = { s with fault := t.fault, seq := .idle })

/-- Rule R263: command acceptance. -/
def Obligations.CommandAcceptance : Prop :=
  ∀ (s : State) (w : Word),
    (s.seq = .idle → s.fault.code = .none →
      s.access (.write32 0x0010 w) = { s with seq := .exec w 0, done := false, reply := ⟨false, 0⟩ } ∧
      ((s.access (.write32 0x0010 w)).readReg .status).getLsbD 0 = true) ∧
    (s.seq ≠ .idle ∨ s.fault.code ≠ .none →
      s.access (.write32 0x0010 w) = { s with dropped := true, reply := ⟨false, 0⟩ })

/-- Rules R22, R33, R34, R35, R105: the four read-write registers while Idle. Each reads back what was written of its fields;
the 2-bit codes of LEVEL and MODE name the variants of R105; a write to CFG or MSG_LEN clears DCW_VALID and STREAM_VALID whether or not the value changed; nothing else changes. -/
def Obligations.ReadWriteRegisters : Prop :=
  ∀ (s : State) (v : Word), s.seq = .idle →
    (∃ t, s.access (.write32 0x0004 v) = t ∧ t = { s with ie := v.getLsbD 0, reply := ⟨false, 0⟩ } ∧
      t.readReg .ctrl = v &&& 0x00000001) ∧
    (∃ t, s.access (.write32 0x0014 v) = t ∧
      t = { s with
        level := t.level, mode := t.mode, version := v.extractLsb' 8 6, dcwValid := false, streamValid := false
        reply := ⟨false, 0⟩ } ∧
      t.readReg .cfg = v &&& 0x00003F33 ∧
      (∀ p ∈ [(0, Level.low), (1, .medium), (2, .quartile), (3, .high)],
        (v.extractLsb' 0 2).toNat = p.1 → t.level = p.2) ∧
      ∀ p ∈ [(0, Mode.numeric), (1, .alphanumeric), (2, .byte), (3, .kanji)],
        (v.extractLsb' 4 2).toNat = p.1 → t.mode = p.2) ∧
    (∃ t, s.access (.write32 0x0018 v) = t ∧
      t = { s with msgLen := v.extractLsb' 0 14, dcwValid := false, streamValid := false, reply := ⟨false, 0⟩ } ∧
      t.readReg .msgLen = v &&& 0x00003FFF) ∧
    (∃ t, s.access (.write32 0x001C v) = t ∧ t = { s with rsK := v.extractLsb' 0 8, reply := ⟨false, 0⟩ } ∧
      t.readReg .rsK = v &&& 0x000000FF)

/-- Rules R51, R270: the interrupt output, what raises it and what makes it fall. -/
def Obligations.InterruptOutput : Prop :=
  ∀ s : State, s.Handshake →
    (s.irq = true ↔ s.ie = true ∧ (s.done = true ∨ s.fault.code ≠ .none)) ∧
    ¬(s.done = true ∧ s.fault.code ≠ .none) ∧
    (∀ v : Word, v.getLsbD 1 = true → s.done = true → (s.access (.write32 0x0008 v)).irq = false) ∧
    (∀ v : Word, s.fault.code ≠ .none → (s.access (.write32 0x000C v)).irq = false) ∧
    (∀ v : Word, v.getLsbD 0 = false → s.seq = .idle → (s.access (.write32 0x0004 v)).irq = false) ∧
    ∀ (i : Instr) (t : State), i ≠ .run → exec i s = .next t → t.irq = s.ie

/-! ### NOP and CLEAR -/

/-- Rule R250: NOP completes and changes nothing but DONE and BUSY; the all-zero word is NOP; its other words are illegal. -/
def Obligations.NopCompletes : Prop :=
  (∀ s : State, exec .nop s = .next { s with done := true, seq := .idle }) ∧
  decode 0 = .ok .nop ∧
  ∀ w : Word, opField w = 0 → w ≠ 0 →
    (rsvField w ≠ 0 → illegalInfo 0 w = some 1) ∧ (rsvField w = 0 → argField w ≠ 0 ∧ illegalInfo 0 w = some 2)

/-- Rule R251: CLEAR completes; what it zeroes and what stands. -/
def Obligations.ClearCompletes : Prop :=
  ∀ s : State, ∃ t, exec .clear s = .next t ∧
    t = { s with
      dcwValid := false, streamValid := false, maskValid := false, dropped := false
      dbits := 0, dcwCount := 0, streamBits := 0, maskSel := 0
      pen1 := 0, pen2 := 0, pen3 := 0, pen4 := 0, penTotal := 0
      penMask := t.penMask, gen := t.gen, genDeg := 0, matrix := t.matrix
      done := true, seq := .idle } ∧
    (∀ m : Fin 8, t.penMask[m] = 0) ∧ (∀ j : Fin 31, t.gen[j] = 0) ∧
    (∀ r < 177, ∀ c < 177, t.cell r c = 0) ∧
    ∀ a : Addr, t.byteAt a = if 0x8000 ≤ a.toNat then 0 else s.byteAt a

/-! ### PACK -/

/-- Rules R130, R142: when no check of PACK fails, it completes: DCW takes the codewords of the padded string, DCW_COUNT and
DBITS their lengths; nothing else changes. -/
def Obligations.PackCompletes : Prop :=
  ∀ (s : State) (mode : PackMode), s.buffersCanonical → PackReady s mode →
    ∃ t, exec .pack s = .next t ∧
      t = { s with
        dcw := t.dcw, dcwCount := t.dcwCount, dbits := t.dbits, dcwValid := true, streamValid := false
        done := true, seq := .idle } ∧
      t.dcwCount.toNat = planData (configuredPlan s) ∧ t.dbits.toNat = (packString s mode).length ∧
      ∀ a : Addr, t.byteAt a =
        if 0x3000 ≤ a.toNat ∧ a.toNat < 0x3000 + planData (configuredPlan s) then
          BitVec.ofNat 8 (codewordAt
            (padTo (terminate (packString s mode) (8 * planData (configuredPlan s))) (8 * planData (configuredPlan s)))
            (a.toNat - 0x3000))
        else s.byteAt a

/-- Rules R130, R267: PACK's faults after the version check, each reported when every earlier check passes; which characters
are legal in which mode (R131, with the default values of R83), and which plans are well formed (R86 items 1 to 3). -/
def Obligations.PackFaultOrder : Prop :=
  (∀ (ref : RefData) (b : Byte),
    (charLegal ref .numeric b = true ↔ 0x30 ≤ b.toNat ∧ b.toNat ≤ 0x39) ∧
    (charLegal ref .alphanumeric b = true ↔ refAlnumValue ref b ≠ none) ∧ charLegal ref .byte b = true ∧
    (refAlnumValue defaultRefData b).map Fin.val =
      if 0x30 ≤ b.toNat ∧ b.toNat ≤ 0x39 then some (b.toNat - 0x30)
      else if 0x41 ≤ b.toNat ∧ b.toNat ≤ 0x5A then some (b.toNat - 0x41 + 10)
      else ([0x20, 0x24, 0x25, 0x2A, 0x2B, 0x2D, 0x2E, 0x2F, 0x3A].idxOf? b.toNat).map (36 + ·)) ∧
  (∀ p : Plan, planOk p = true ↔
    1 ≤ p.n1 ∧ 1 ≤ p.k1 ∧ (p.n2 = 0 ↔ p.k2 = 0) ∧ 1 ≤ p.ec ∧ p.ec ≤ 30 ∧ p.n1 * p.k1 + p.n2 * p.k2 ≤ 2956 ∧
      p.k2 + p.ec ≤ 255 ∧ p.k1 + p.ec ≤ 255) ∧
  ∀ s : State, 1 ≤ s.versionNat → s.versionNat ≤ 40 →
    (s.mode = .kanji → exec .pack s = .next { s with fault := ⟨.config, 0x10, 2⟩, seq := .idle }) ∧
    ∀ mode, packMode s.mode = some mode →
      (7089 < s.msgLen.toNat → exec .pack s = .next { s with fault := ⟨.overflow, 0x10, 0⟩, seq := .idle }) ∧
      (s.msgLen.toNat ≤ 7089 →
        (∀ i, i < s.msgLen.toNat → charLegal s.params.refdata mode (s.msgByte i) = false →
          (∀ j, j < i → charLegal s.params.refdata mode (s.msgByte j) = true) →
          exec .pack s = .next { s with fault := ⟨.charset, 0x10, BitVec.ofNat 16 i⟩, seq := .idle }) ∧
        ((∀ i, i < s.msgLen.toNat → charLegal s.params.refdata mode (s.msgByte i) = true) →
          (planOk (configuredPlan s) = false →
            exec .pack s = .next { s with fault := ⟨.refdata, 0x10, 1⟩, seq := .idle }) ∧
          (planOk (configuredPlan s) = true →
            (2 ^ refCcWidth s.params.refdata mode (tierOf s.versionNat) ≤ s.msgLen.toNat →
              exec .pack s = .next { s with fault := ⟨.overflow, 0x10, 1⟩, seq := .idle }) ∧
            (s.msgLen.toNat < 2 ^ refCcWidth s.params.refdata mode (tierOf s.versionNat) →
              8 * planData (configuredPlan s) < (packString s mode).length →
              exec .pack s = .next { s with fault := ⟨.overflow, 0x10, 2⟩, seq := .idle }))))

/-- Rules R132 to R137: the header's two fields, the fields of the data bits in the three modes, and their lengths; the default
mode indicators and count widths (R80, R81). -/
def Obligations.MessageFields : Prop :=
  ([PackMode.numeric, .alphanumeric, .byte].map fun mode => (refModeIndicator defaultRefData mode).toNat) = [1, 2, 4] ∧
  (∀ p ∈ [(PackMode.numeric, [10, 12, 14]), (.alphanumeric, [9, 11, 13]), (.byte, [8, 16, 16])],
    [Tier.tier0, .tier1, .tier2].map (refCcWidth defaultRefData p.1) = p.2) ∧
  (∀ (ref : RefData) (mode : PackMode) (v len : Nat), 1 ≤ v → v ≤ 40 →
    ∀ w, w = refCcWidth ref mode (if v ≤ 9 then .tier0 else if v ≤ 26 then .tier1 else .tier2) → len < 2 ^ w →
      (packHeader ref mode v len).length = 4 + w ∧
      natOfBits ((packHeader ref mode v len).take 4) = (refModeIndicator ref mode).toNat ∧
      natOfBits ((packHeader ref mode v len).drop 4) = len) ∧
  (∀ (ref : RefData) (b : List Byte) (s : Bits), (∀ x ∈ b, 0x30 ≤ x.toNat ∧ x.toNat ≤ 0x39) →
    s = packData ref .numeric b →
    s.length = 10 * (b.length / 3) + [0, 4, 7].getD (b.length % 3) 0 ∧
    (∀ g, 3 * g + 2 < b.length →
      natOfBits ((s.drop (10 * g)).take 10) =
        100 * ((b.getD (3 * g) 0).toNat - 0x30) + 10 * ((b.getD (3 * g + 1) 0).toNat - 0x30) +
          ((b.getD (3 * g + 2) 0).toNat - 0x30)) ∧
    (b.length % 3 = 2 →
      natOfBits (s.drop (10 * (b.length / 3))) =
        10 * ((b.getD (b.length - 2) 0).toNat - 0x30) + ((b.getD (b.length - 1) 0).toNat - 0x30)) ∧
    (b.length % 3 = 1 →
      natOfBits (s.drop (10 * (b.length / 3))) = (b.getD (b.length - 1) 0).toNat - 0x30)) ∧
  (∀ (ref : RefData) (b : List Byte) (x : List (Fin 45)) (s : Bits), b.map (refAlnumValue ref) = x.map some →
    s = packData ref .alphanumeric b →
    s.length = 11 * (b.length / 2) + 6 * (b.length % 2) ∧
    (∀ p, 2 * p + 1 < b.length →
      natOfBits ((s.drop (11 * p)).take 11) = 45 * (x.getD (2 * p) 0).val + (x.getD (2 * p + 1) 0).val) ∧
    (b.length % 2 = 1 → natOfBits (s.drop (11 * (b.length / 2))) = (x.getD (b.length - 1) 0).val)) ∧
  ∀ (ref : RefData) (b : List Byte) (s : Bits), s = packData ref .byte b →
    s.length = 8 * b.length ∧ ∀ i, i < b.length → natOfBits ((s.drop (8 * i)).take 8) = (b.getD i 0).toNat

/-- Rules R139 to R141: the padded string is exactly as long as the capacity: the string, up to 4 zero bits, zero bits to a
multiple of 8, then 0xEC and 0x11 in turn. -/
def Obligations.PaddingFillsCapacity : Prop :=
  ∀ (s : Bits) (d : Nat), s.length ≤ 8 * d →
    ∀ p z, p = padTo (terminate s (8 * d)) (8 * d) →
      z = min 4 (8 * d - s.length) + (8 - (s.length + min 4 (8 * d - s.length)) % 8) % 8 →
      p.length = 8 * d ∧ p.take (s.length + z) = s ++ zeroBits z ∧ (s.length + z) % 8 = 0 ∧
      ∀ j, s.length + z + 8 * j < 8 * d →
        natOfBits ((p.drop (s.length + z + 8 * j)).take 8) = if j % 2 = 0 then 0xEC else 0x11

/-! ### Reed–Solomon -/

/-- Rules R160, R161, R163: the tables are the powers of 2 and their logarithms, and multiplication through them is
multiplication of polynomials over GF(2) modulo x⁸ + x⁴ + x³ + x² + 1. -/
def Obligations.FieldTablesAndProduct : Prop :=
  gfExp 0 = 1 ∧ (∀ e, e < 254 → gfExp (e + 1) = timesX (gfExp e)) ∧ gfExp 255 = gfExp 0 ∧
  (∀ x : Byte, x ≠ 0 → gfLog x < 255 ∧ gfExp (gfLog x) = x) ∧ (∀ e, e < 255 → gfLog (gfExp e) = e) ∧
  ∀ a b : Byte, gfMul a b = polynomialProduct a b

/-- Rule R164: genpoly(n) holds the exponents of the monic polynomial Π (x − 2^i), i = 0..n−1. -/
def Obligations.GeneratorPolynomial : Prop :=
  ∀ n, 1 ≤ n → n ≤ 30 →
    (genpoly n).length = n + 1 ∧ (genpoly n).head? = some 0 ∧ (∀ e ∈ genpoly n, e < 255) ∧
    ∀ x : Byte, gfEval ((genpoly n).map gfExp) x =
      (List.range n).foldl (fun acc i => gfMul acc (gfAdd x (gfExp i))) 1

/-- Rules R168, R170: n codewords after a block make it vanish at 2^i for i = 0..n−1 exactly when they are its EC
codewords. -/
def Obligations.RemainderDivides : Prop :=
  ∀ (d e : List Byte) (n : Nat), 1 ≤ n → n ≤ 30 → d.length + n ≤ 255 → e.length = n →
    (rsRemainder d n).length = n ∧ ((∀ i, i < n → gfEval (d ++ e) (gfExp i) = 0) ↔ e = rsRemainder d n)

/-- Rule R169: linearity, and leading zero codewords change nothing. -/
def Obligations.RemainderLinear : Prop :=
  ∀ (d d' : List Byte) (n : Nat), 1 ≤ n → n ≤ 30 → d.length = d'.length →
    rsRemainder (List.zipWith gfAdd d d') n = List.zipWith gfAdd (rsRemainder d n) (rsRemainder d' n) ∧
    ∀ j, rsRemainder (List.replicate j 0 ++ d) n = rsRemainder d n

/-- Rule R166: GENPOLY with a legal argument completes, whatever CFG holds; GEN and GEN_DEG are its only results. With
another argument it faults E_ILLEGAL INFO 3. -/
def Obligations.GenpolyCompletes : Prop :=
  (∀ (s : State) (n : Byte), n.toNat = 0 ∨ 30 < n.toNat →
    exec (.genpoly n) s = .next { s with fault := ⟨.illegal, 0x20, 3⟩, seq := .idle }) ∧
  ∀ (s : State) (n : Byte), 1 ≤ n.toNat → n.toNat ≤ 30 →
    ∃ t, exec (.genpoly n) s = .next t ∧
      t = { s with gen := t.gen, genDeg := t.genDeg, done := true, seq := .idle } ∧
      t.genDeg.toNat = n.toNat ∧
      (∀ j : Fin 31, (t.gen[j]).toNat = if j.val ≤ n.toNat then (genpoly n.toNat).getD j.val 0 else 0) ∧
      ∀ a : Addr, t.byteAt a = s.byteAt a

/-- Rule R167: RSENC with a legal argument and RS_K + n ≤ 255 completes; RSEC takes the EC codewords of RSBUF[0..RS_K−1] and
zeros. Otherwise it faults E_ILLEGAL INFO 3 or 4. -/
def Obligations.RsencCompletes : Prop :=
  (∀ (s : State) (n : Byte), n.toNat = 0 ∨ 30 < n.toNat →
    exec (.rsenc n) s = .next { s with fault := ⟨.illegal, 0x21, 3⟩, seq := .idle }) ∧
  (∀ (s : State) (n : Byte), 1 ≤ n.toNat → n.toNat ≤ 30 → 255 < s.rsK.toNat + n.toNat →
    exec (.rsenc n) s = .next { s with fault := ⟨.illegal, 0x21, 4⟩, seq := .idle }) ∧
  ∀ (s : State) (n : Byte), s.buffersCanonical → 1 ≤ n.toNat → n.toNat ≤ 30 → s.rsK.toNat + n.toNat ≤ 255 →
    ∃ t, exec (.rsenc n) s = .next t ∧
      t = { s with rsec := t.rsec, gen := t.gen, genDeg := t.genDeg, done := true, seq := .idle } ∧
      t.genDeg.toNat = n.toNat ∧
      (∀ j : Fin 31, (t.gen[j]).toNat = if j.val ≤ n.toNat then (genpoly n.toNat).getD j.val 0 else 0) ∧
      ∀ a : Addr, t.byteAt a =
        if 0x5100 ≤ a.toNat ∧ a.toNat < 0x5120 then
          if a.toNat - 0x5100 < n.toNat then
            (rsRemainder (firstBytes s.rsbufByte s.rsK.toNat) n.toNat).getD (a.toNat - 0x5100) 0
          else 0
        else s.byteAt a

/-! ### INTERLEAVE -/

/-- Rules R180, R184, R185: when no check of INTERLEAVE fails, it completes: STREAM takes the interleaved codewords and the
zero remainder bits, STREAM_BITS the length, GEN the generator. -/
def Obligations.InterleaveCompletes : Prop :=
  ∀ s : State, s.buffersCanonical → InterleaveReady s →
    ∃ t, exec .interleave s = .next t ∧
      t = { s with
        stream := t.stream, streamBits := t.streamBits, streamValid := true, gen := t.gen, genDeg := t.genDeg
        done := true, seq := .idle } ∧
      t.streamBits.toNat =
        8 * planData (configuredPlan s) + 8 * (configuredPlan s).ec * planBlocks (configuredPlan s) +
          refRemainderBits s.params.refdata s.versionNat ∧
      t.genDeg.toNat = (configuredPlan s).ec ∧
      (∀ j : Fin 31, (t.gen[j]).toNat =
        if j.val ≤ (configuredPlan s).ec then (genpoly (configuredPlan s).ec).getD j.val 0 else 0) ∧
      ∀ a : Addr, t.byteAt a =
        if 0x4000 ≤ a.toNat ∧ a.toNat < 0x4000 + (t.streamBits.toNat + 7) / 8 then
          (interleavedCodewords (configuredPlan s) (firstBytes s.dcwByte (planData (configuredPlan s)))).getD
            (a.toNat - 0x4000) 0
        else s.byteAt a

/-- Rules R180, R267: INTERLEAVE's faults after the version check, in order. -/
def Obligations.InterleaveFaultOrder : Prop :=
  ∀ s : State, 1 ≤ s.versionNat → s.versionNat ≤ 40 →
    (s.dcwValid = false → exec .interleave s = .next { s with fault := ⟨.sequence, 0x22, 1⟩, seq := .idle }) ∧
    (s.dcwValid = true → planOk (configuredPlan s) = false →
      exec .interleave s = .next { s with fault := ⟨.refdata, 0x22, 1⟩, seq := .idle }) ∧
    (s.dcwValid = true → planOk (configuredPlan s) = true → 8 * 3707 < configuredStreamLength s →
      exec .interleave s = .next { s with fault := ⟨.refdata, 0x22, 3⟩, seq := .idle })

/-- Rule R181: the block split. -/
def Obligations.BlockSplit : Prop :=
  ∀ (p : Plan) (d : List Byte), d.length = planData p →
    (blocksOf p d).length = p.n1 + p.n2 ∧
    (∀ b, b < p.n1 → (blocksOf p d)[b]? = some ((d.drop (b * p.k1)).take p.k1)) ∧
    (∀ b, b < p.n2 → (blocksOf p d)[p.n1 + b]? = some ((d.drop (p.n1 * p.k1 + b * p.k2)).take p.k2)) ∧
    (blocksOf p d).flatten = d

/-- Rules R183, R186: the order of the interleaved codewords, data then EC, for every plan; that interleaving only reorders; the
data order when group 2 is one codeword longer; the default plans. -/
def Obligations.InterleavePermutes : Prop :=
  (∀ (p : Plan) (d : List Byte), d.length = planData p →
    ∀ blk, blk = blocksOf p d →
      interleaveColumns (max p.k1 p.k2) blk =
        ((List.range (max p.k1 p.k2)).flatMap fun i => (List.range (p.n1 + p.n2)).flatMap fun b =>
          if i < (if b < p.n1 then p.k1 else p.k2) then [(blk.getD b []).getD i 0] else []) ∧
      interleaveColumns p.ec (blockEc p.ec blk) =
        ((List.range p.ec).flatMap fun i => (List.range (p.n1 + p.n2)).map fun b =>
          (rsRemainder (blk.getD b []) p.ec).getD i 0) ∧
      interleavedCodewords p d =
        interleaveColumns (max p.k1 p.k2) blk ++ interleaveColumns p.ec (blockEc p.ec blk) ∧
      (interleaveColumns (max p.k1 p.k2) blk).Perm d ∧
      (interleaveColumns p.ec (blockEc p.ec blk)).Perm (blockEc p.ec blk).flatten ∧
      (p.k2 = p.k1 + 1 → 0 < p.n2 →
        interleaveColumns (max p.k1 p.k2) blk =
          ((List.range p.k1).flatMap fun i => blk.map fun b => b.getD i 0) ++ (blk.drop p.n1).map fun b => b.getD p.k1 0)) ∧
  ∀ (level : Level) (v : Nat), 1 ≤ v → v ≤ 40 →
    (refPlan defaultRefData level v).k2 = (refPlan defaultRefData level v).k1 + 1 ∨ (refPlan defaultRefData level v).n2 = 0

/-! ### FUNCPAT and PLACE -/

/-- Rules R190, R191, R202: when no check of FUNCPAT fails, it completes: the N × N area takes the function patterns, every
other cell becomes Empty, MASK_VALID is cleared, nothing else changes. -/
def Obligations.FuncpatCompletes : Prop :=
  ∀ s : State, FuncpatReady s →
    ∃ t, exec .funcpat s = .next t ∧
      t = { s with matrix := t.matrix, maskValid := false, done := true, seq := .idle } ∧
      (∀ r < 177, ∀ c < 177, t.cell r c =
        if r < configuredSide s ∧ c < configuredSide s then
          functionPatterns s.versionNat (refAlignmentPairs s.params.refdata s.versionNat) r c
        else 0) ∧
      ∀ a : Addr, a.toNat < 0x8000 → t.byteAt a = s.byteAt a

/-- Rules R192 to R200 with the default centre pairs: where each function pattern lies and what its cells are,
and that every other cell is Empty; the six codes of rule R104. -/
def Obligations.FunctionPatternCells : Prop :=
  [emptyCell, reservedCell, backgroundCell, foregroundCell, patternBackgroundCell, patternForegroundCell] =
    [0, 1, 2, 3, 4, 5] ∧
  ∀ v n : Nat, 1 ≤ v → v ≤ 40 → n = 4 * v + 17 →
    ∀ m, m = functionPatterns v (refAlignmentPairs defaultRefData v) →
      (∀ p ∈ [(0, 0), (0, n - 7), (n - 7, 0)], ∀ dr < 7, ∀ dc < 7,
        m (p.1 + dr) (p.2 + dc) =
          if max ((dr : Int) - 3).natAbs ((dc : Int) - 3).natAbs = 2 then patternBackgroundCell
          else patternForegroundCell) ∧
      (∀ i < 8, m 7 i = patternBackgroundCell ∧ m i 7 = patternBackgroundCell ∧
        m 7 (n - 1 - i) = patternBackgroundCell ∧ m i (n - 8) = patternBackgroundCell ∧
        m (n - 8) i = patternBackgroundCell ∧ m (n - 1 - i) 7 = patternBackgroundCell) ∧
      (∀ p ∈ refAlignmentPairs defaultRefData v, ∀ dr < 5, ∀ dc < 5,
        m (p.1 + dr - 2) (p.2 + dc - 2) =
          if max ((dr : Int) - 2).natAbs ((dc : Int) - 2).natAbs = 1 then patternBackgroundCell
          else patternForegroundCell) ∧
      (∀ c ∈ [0, 1, 2, 3, 4, 5, 7, 8], m 8 c = reservedCell) ∧ (∀ r ∈ [0, 1, 2, 3, 4, 5, 7], m r 8 = reservedCell) ∧
      (∀ i < 8, m 8 (n - 1 - i) = reservedCell) ∧ (∀ i < 7, m (n - 1 - i) 8 = reservedCell) ∧
      m (n - 8) 8 = patternForegroundCell ∧
      (7 ≤ v → ∀ i < 6, ∀ j < 3, m i (n - 11 + j) = reservedCell ∧ m (n - 11 + j) i = reservedCell) ∧
      (∀ i, 8 ≤ i → i ≤ n - 9 →
        m 6 i = (if i % 2 = 0 then patternForegroundCell else patternBackgroundCell) ∧
        m i 6 = if i % 2 = 0 then patternForegroundCell else patternBackgroundCell) ∧
      ∀ r < n, ∀ c < n, (m r c = emptyCell ↔ functionArea v n (refAlignmentPairs defaultRefData v) r c = false)

/-- Rules R190, R205, R206, R267: the faults of FUNCPAT and PLACE after the version check, in order. -/
def Obligations.MatrixFaultOrder : Prop :=
  ∀ s : State, 1 ≤ s.versionNat → s.versionNat ≤ 40 →
    ((∃ p ∈ refAlignmentPairs s.params.refdata s.versionNat,
        p.1 < 2 ∨ p.2 < 2 ∨ configuredSide s - 3 < p.1 ∨ configuredSide s - 3 < p.2) →
      exec .funcpat s = .next { s with fault := ⟨.refdata, 0x30, 2⟩, seq := .idle }) ∧
    (s.streamValid = false → exec .place s = .next { s with fault := ⟨.sequence, 0x31, 2⟩, seq := .idle }) ∧
    (s.streamValid = true → emptyCount (configuredSide s) s.cell ≠ s.streamBits.toNat →
      exec .place s =
        .next { s with
          fault := ⟨.placement, 0x31, BitVec.ofNat 16 (emptyCount (configuredSide s) s.cell)⟩, seq := .idle })

/-- Rules R205, R207, R209: when no check of PLACE fails, it completes: the k-th Empty cell in traversal order takes stream
bit k, every other cell stands, MASK_VALID is cleared, nothing else changes. -/
def Obligations.PlaceCompletes : Prop :=
  ∀ s : State, s.buffersCanonical → PlaceReady s →
    ∃ t, exec .place s = .next t ∧
      t = { s with matrix := t.matrix, maskValid := false, done := true, seq := .idle } ∧
      (∀ k p, (emptyInOrder (configuredSide s) s.cell)[k]? = some p →
        t.cell p.1 p.2 = if s.streamBit k then foregroundCell else backgroundCell) ∧
      (∀ r < 177, ∀ c < 177, (r, c) ∉ emptyInOrder (configuredSide s) s.cell → t.cell r c = s.cell r c) ∧
      ∀ a : Addr, a.toNat < 0x8000 → t.byteAt a = s.byteAt a

/-- Rule R208: the traversal order, and that it meets every cell outside column 6 exactly once. -/
def Obligations.TraversalOrder : Prop :=
  ∀ v n : Nat, 1 ≤ v → v ≤ 40 → n = 4 * v + 17 →
    (placeOrder n).length = n * (n - 1) ∧
    (∀ p t, p < (n - 1) / 2 → t < n →
      ∀ r right, r = (if p % 2 = 0 then n - 1 - t else t) →
        right = (if 8 ≤ n - 1 - 2 * p then n - 1 - 2 * p else n - 2 - 2 * p) →
        (placeOrder n)[2 * n * p + 2 * t]? = some (r, right) ∧
        (placeOrder n)[2 * n * p + 2 * t + 1]? = some (r, right - 1)) ∧
    (placeOrder n).Nodup ∧ ∀ r c, (r, c) ∈ placeOrder n ↔ r < n ∧ c < n ∧ c ≠ 6

/-- Rule R211: after a PLACE that completes no cell of N × N is Empty, when column 6 held no Empty cell. -/
def Obligations.NoEmptyAfterPlace : Prop :=
  ∀ s : State, s.buffersCanonical → PlaceReady s → (∀ r < configuredSide s, s.cell r 6 ≠ emptyCell) →
    ∃ t, exec .place s = .next t ∧ t.done = true ∧
      ∀ r < configuredSide s, ∀ c < configuredSide s, t.cell r c ≠ emptyCell

/-! ### The mask engine -/

/-- Rules R220, R223 to R226: the colour of each cell code, PAT and PAT2, and the four penalty rules, from their own words. -/
def Obligations.PenaltyRules : Prop :=
  (∀ x : CellCode, effColour x = if x = 3 ∨ x = 5 then some .dark else if x = 2 ∨ x = 4 then some .light else none) ∧
  finderLike.map colourDigit = [1, 0, 1, 1, 1, 0, 1, 0, 0, 0, 0].map some ∧
  (finderLike2 .complement).map colourDigit = [0, 1, 0, 0, 0, 1, 0, 1, 1, 1, 1].map some ∧
  (finderLike2 .reverse).map colourDigit = [0, 0, 0, 0, 1, 0, 1, 1, 1, 0, 1].map some ∧
  ∀ (p3 : P3Second) (n : Nat) (m : Machine.Matrix) (e : Nat → Nat → Option Colour),
    (e = fun i j => effColour (m i j)) → 1 ≤ n →
    (scoreOf p3 n m).p1 = ((linesOf n e).map fun line => ((lineRuns line).map lineRunScore).sum).sum ∧
    (scoreOf p3 n m).p2 =
      3 * ((cellsOf (n - 1)).filter fun p =>
        (e p.1 p.2).isSome && e p.1 (p.2 + 1) == e p.1 p.2 && e (p.1 + 1) p.2 == e p.1 p.2 &&
          e (p.1 + 1) (p.2 + 1) == e p.1 p.2).length ∧
    (scoreOf p3 n m).p3 = 40 * ((linesOf n e).map (lineMatches p3)).sum ∧
    ∀ f : Nat, f = 100 * ((cellsOf n).filter fun p => e p.1 p.2 == some .dark).length / (n * n) / 5 →
      (scoreOf p3 n m).p4 = 10 * min ((f : Int) - 10).natAbs ((f : Int) - 9).natAbs

/-- Rules R40, R227: the bounds that let 32 bits hold the penalties, and the balance rule's facts. -/
def Obligations.PenaltyBounds : Prop :=
  (∀ (p3 : P3Second) (n : Nat) (m : Machine.Matrix), 1 ≤ n → n ≤ 177 →
    (scoreOf p3 n m).p1 ≤ 2 * 177 * 175 ∧ (scoreOf p3 n m).p2 ≤ 3 * 176 ^ 2 ∧
    (scoreOf p3 n m).p3 ≤ 40 * 2 * 177 * 167 ∧ (scoreOf p3 n m).p4 ≤ 100) ∧
  ∀ n dark pct : Nat, 1 ≤ n → dark ≤ n * n → pct = 100 * dark / (n * n) →
    pct / 5 = 20 * dark / (n * n) ∧ balanceScore pct ≤ 100 ∧ (balanceScore pct = 0 ↔ 45 ≤ pct ∧ pct < 55)

/-- Rules R221, R222, R233, R235: the eight predicates; masking twice restores the matrix, masks commute, and only Background and Foreground cells of
N × N ever change. -/
def Obligations.MaskLaws : Prop :=
  (∀ i j : Nat,
    (maskPred 0 i j = true ↔ (i + j) % 2 = 0) ∧ (maskPred 1 i j = true ↔ i % 2 = 0) ∧
    (maskPred 2 i j = true ↔ j % 3 = 0) ∧ (maskPred 3 i j = true ↔ (i + j) % 3 = 0) ∧
    (maskPred 4 i j = true ↔ (i / 2 + j / 3) % 2 = 0) ∧ (maskPred 5 i j = true ↔ (i * j) % 2 + (i * j) % 3 = 0) ∧
    (maskPred 6 i j = true ↔ ((i * j) % 2 + (i * j) % 3) % 2 = 0) ∧
    (maskPred 7 i j = true ↔ ((i + j) % 2 + (i * j) % 3) % 2 = 0)) ∧
  ∀ (n a b : Nat) (m : Machine.Matrix) (r c : Nat),
    applyMask n a (applyMask n a m) r c = m r c ∧
    applyMask n a (applyMask n b m) r c = applyMask n b (applyMask n a m) r c ∧
    (m r c ≠ backgroundCell → m r c ≠ foregroundCell → applyMask n a m r c = m r c) ∧
    (¬(r < n ∧ c < n) → applyMask n a m r c = m r c) ∧
    (r < n → c < n → maskPred a r c = true → m r c = backgroundCell → applyMask n a m r c = foregroundCell) ∧
    (r < n → c < n → maskPred a r c = true → m r c = foregroundCell → applyMask n a m r c = backgroundCell) ∧
    (maskPred a r c = false → applyMask n a m r c = m r c)

/-- Rule R229: when no check of PENALTY fails, it completes and writes the five penalty registers only; an argument in
8..0xFE is E_ILLEGAL INFO 3. -/
def Obligations.PenaltyCompletes : Prop :=
  (∀ (s : State) (m : Byte), 8 ≤ m.toNat → m.toNat ≤ 0xFE →
    exec (.penalty m) s = .next { s with fault := ⟨.illegal, 0x40, 3⟩, seq := .idle }) ∧
  ∀ (s : State) (m : Byte), m.toNat ≤ 7 ∨ m = 0xFF → MaskReady s →
    ∀ x, x = scoreOf s.params.p3Second (configuredSide s)
      (if m = 0xFF then s.cell else applyMask (configuredSide s) m.toNat s.cell) →
    ∃ t, exec (.penalty m) s = .next t ∧
      t = { s with
        pen1 := t.pen1, pen2 := t.pen2, pen3 := t.pen3, pen4 := t.pen4, penTotal := t.penTotal
        done := true, seq := .idle } ∧
      t.pen1.toNat = x.p1 ∧ t.pen2.toNat = x.p2 ∧ t.pen3.toNat = x.p3 ∧ t.pen4.toNat = x.p4 ∧
      t.penTotal.toNat = x.p1 + x.p2 + x.p3 + x.p4 ∧
      ∀ a : Addr, t.byteAt a = s.byteAt a

/-- Rules R230, R231: when no check of MASKSEL fails, it completes: PENMASK takes the eight totals, MASK_SEL the smallest
index of the least, MATRIX that candidate, the penalty registers its score. -/
def Obligations.MaskselCompletes : Prop :=
  ∀ s : State, s.buffersCanonical → MaskReady s →
    ∀ x : Nat → Score, (x = fun m => scoreOf s.params.p3Second (configuredSide s)
      (applyMask (configuredSide s) m s.cell)) →
    ∃ t, exec .masksel s = .next t ∧
      t = { s with
        matrix := t.matrix, maskSel := t.maskSel, maskValid := true, penMask := t.penMask
        pen1 := t.pen1, pen2 := t.pen2, pen3 := t.pen3, pen4 := t.pen4, penTotal := t.penTotal
        done := true, seq := .idle } ∧
      (∀ m : Fin 8, (t.penMask[m]).toNat = (x m.val).total) ∧
      (∀ m < 8, (x t.maskSel.toNat).total ≤ (x m).total) ∧
      (∀ m < t.maskSel.toNat, (x t.maskSel.toNat).total < (x m).total) ∧
      t.pen1.toNat = (x t.maskSel.toNat).p1 ∧ t.pen2.toNat = (x t.maskSel.toNat).p2 ∧
      t.pen3.toNat = (x t.maskSel.toNat).p3 ∧ t.pen4.toNat = (x t.maskSel.toNat).p4 ∧
      t.penTotal.toNat = (x t.maskSel.toNat).total ∧
      (∀ r < 177, ∀ c < 177, t.cell r c =
        if r < configuredSide s ∧ c < configuredSide s then applyMask (configuredSide s) t.maskSel.toNat s.cell r c
        else s.cell r c) ∧
      ∀ a : Addr, a.toNat < 0x8000 → t.byteAt a = s.byteAt a

/-- Rule R232: when no check of MASKAPPLY fails, it completes: MATRIX takes the candidate of mask m, MASK_SEL m; an argument
above 7 is E_ILLEGAL INFO 3. -/
def Obligations.MaskapplyCompletes : Prop :=
  (∀ (s : State) (m : Byte), 7 < m.toNat →
    exec (.maskapply m) s = .next { s with fault := ⟨.illegal, 0x42, 3⟩, seq := .idle }) ∧
  ∀ (s : State) (m : Byte), s.buffersCanonical → m.toNat ≤ 7 → MaskReady s →
    ∃ t, exec (.maskapply m) s = .next t ∧
      t = { s with matrix := t.matrix, maskSel := t.maskSel, maskValid := true, done := true, seq := .idle } ∧
      t.maskSel.toNat = m.toNat ∧
      (∀ r < 177, ∀ c < 177, t.cell r c =
        if r < configuredSide s ∧ c < configuredSide s then applyMask (configuredSide s) m.toNat s.cell r c
        else s.cell r c) ∧
      ∀ a : Addr, a.toNat < 0x8000 → t.byteAt a = s.byteAt a

/-- Rules R220, R267: PENALTY, MASKSEL and MASKAPPLY fault on the first colourless cell in row-major order. -/
def Obligations.MaskFaultsOnFirstColourlessCell : Prop :=
  ∀ (s : State) (r c : Nat), 1 ≤ s.versionNat → s.versionNat ≤ 40 → r < configuredSide s → c < configuredSide s →
    (s.cell r c = 0 ∨ s.cell r c = 6 ∨ s.cell r c = 7) →
    (∀ r' < configuredSide s, ∀ c' < configuredSide s, r' < r ∨ (r' = r ∧ c' < c) →
      s.cell r' c' ≠ 0 ∧ s.cell r' c' ≠ 6 ∧ s.cell r' c' ≠ 7) →
    (∀ m : Byte, m.toNat ≤ 7 ∨ m = 0xFF →
      exec (.penalty m) s =
        .next { s with fault := ⟨.cell, 0x40, BitVec.ofNat 16 (177 * r + c)⟩, seq := .idle }) ∧
    exec .masksel s = .next { s with fault := ⟨.cell, 0x41, BitVec.ofNat 16 (177 * r + c)⟩, seq := .idle } ∧
    ∀ m : Byte, m.toNat ≤ 7 →
      exec (.maskapply m) s =
        .next { s with fault := ⟨.cell, 0x42, BitVec.ofNat 16 (177 * r + c)⟩, seq := .idle }

/-- Rule R234: after MASKSEL, PENALTY 0xFF completes whatever the penalty registers held, and gives PEN_TOTAL =
PENMASK[MASK_SEL], the least of the eight totals; the same matrix gives the same matrix and index. -/
def Obligations.SelectionIdempotent : Prop :=
  ∀ s : State, s.buffersCanonical → MaskReady s →
    ∃ t, exec .masksel s = .next t ∧ t.done = true ∧ t.fault = s.fault ∧
      (∀ q : State,
        q = { t with
          done := false, seq := .exec 0x0000FF40 0
          pen1 := q.pen1, pen2 := q.pen2, pen3 := q.pen3, pen4 := q.pen4, penTotal := q.penTotal } →
        ∃ u, exec (.penalty 0xFF) q = .next u ∧ u.done = true ∧ u.fault = t.fault ∧ u.seq = .idle ∧
          (∀ m : Fin 8, m.val = t.maskSel.toNat → u.penTotal = t.penMask[m]) ∧
          ∀ m : Fin 8, u.penTotal.toNat ≤ (t.penMask[m]).toNat) ∧
      ∀ s' : State, s'.buffersCanonical → MaskReady s' → s'.version = s.version →
        s'.params.p3Second = s.params.p3Second →
        (∀ r < configuredSide s, ∀ c < configuredSide s, s'.cell r c = s.cell r c) →
        ∃ t', exec .masksel s' = .next t' ∧ t'.maskSel = t.maskSel ∧
          ∀ r < configuredSide s, ∀ c < configuredSide s, t'.cell r c = t.cell r c

/-! ### Faults -/

/-- Rule R106: VERSION 0 and 41..63 fault E_CONFIG INFO 1 in every command that uses the version; RUN reports its first
stage's opcode (rule R252). -/
def Obligations.VersionFaults : Prop :=
  ∀ s : State, s.version = 0 ∨ 41 ≤ s.version.toNat →
    (∀ i ∈ [Instr.pack, .interleave, .funcpat, .place, .masksel],
      exec i s = .next { s with fault := ⟨.config, i.opcode.code, 1⟩, seq := .idle }) ∧
    (∀ m : Byte, m.toNat ≤ 7 ∨ m = 0xFF →
      exec (.penalty m) s = .next { s with fault := ⟨.config, 0x40, 1⟩, seq := .idle }) ∧
    (∀ m : Byte, m.toNat ≤ 7 →
      exec (.maskapply m) s = .next { s with fault := ⟨.config, 0x42, 1⟩, seq := .idle }) ∧
    ∀ w, s.seq = .exec w 0 → exec .run s = .next { s with fault := ⟨.config, 0x10, 1⟩, seq := .idle }

/-- Rules R260, R265, R266: a command other than RUN ends in one of two ways, and a fault changes nothing but FAULT and
BUSY; a step of RUN ends one stage. -/
def Obligations.CommandEndsOneOfTwoWays : Prop :=
  ∀ (s t : State) (i : Instr), exec i s = .next t →
    (i ≠ .run →
      (t.done = true ∧ t.seq = .idle ∧ t.fault = s.fault) ∨
      ∃ code info, code ≠ .none ∧ t = { s with fault := ⟨code, i.opcode.code, info⟩, seq := .idle }) ∧
    (∀ w stage, i = .run → s.seq = .exec w stage →
      (t.fault = s.fault ∧
        if stage = 4 then t.done = true ∧ t.seq = .idle else t.done = s.done ∧ t.seq = .exec w (stage + 1)) ∨
      ∃ code info, code ≠ .none ∧ t = { s with fault := ⟨code, (stageOpcode stage).code, info⟩, seq := .idle })

/-! ### RUN -/

/-- Rule R252: a step of RUN executes its stage exactly as that stage's own command; a completed stage leads on to the next,
the last one and a fault end RUN. -/
def Obligations.RunStageIsItsCommand : Prop :=
  ∀ (s : State) (w : Word) (stage : Fin 5) (i : Instr), s.seq = .exec w stage → s.done = false →
    s.fault = FaultReg.zero → stageCommands[stage.val]? = some i →
    ∃ t, exec i s = .next t ∧
      (t.fault.code ≠ .none → exec .run s = .next t ∧ t.fault.op = i.opcode.code ∧ t.done = false) ∧
      (t.fault.code = .none → t.done = true ∧
        exec .run s = .next (if stage = 4 then t else { t with done := false, seq := .exec w (stage + 1) }))

/-- Rule R252: when no check of its stage fails, a step of RUN completes that stage. -/
def Obligations.RunStageCompletes : Prop :=
  ∀ (s : State) (w : Word) (stage : Fin 5), s.seq = .exec w stage → s.done = false → s.fault = FaultReg.zero →
    stageReady stage s →
    ∃ i t, stageCommands[stage.val]? = some i ∧ exec i s = .next t ∧ t.done = true ∧ t.fault = FaultReg.zero ∧
      exec .run s = .next (if stage = 4 then t else { t with done := false, seq := .exec w (stage + 1) })

/-- Rule R253: a RUN that completes leaves the state of the five commands issued one after another; a RUN that faults in
stage k leaves the state of the first k commands followed by the faulting one. -/
def Obligations.RunEquivalence : Prop :=
  ∀ s : State, s.ready →
    ∃ t, Sys2Proof.core.run 6 { s with inputs := issueRun } = .next t ∧ t.seq = .idle ∧
      ((t.done = true ∧ t.fault = FaultReg.zero ∧
        Sys2Proof.core.run 10 { s with inputs := issueStages 5 } = .next t) ∨
      ∃ k : Fin 5, t.done = false ∧ t.fault.code ≠ .none ∧ t.fault.op = (stageOpcode k).code ∧
        Sys2Proof.core.run (2 * (k.val + 1)) { s with inputs := issueStages (k.val + 1) } = .next t)

/-- Rule R253: what RUN leaves is a function of CFG, MSG_LEN, MSG[0..L−1] and the parameters alone. -/
def Obligations.RunDependsOnInputsOnly : Prop :=
  ∀ s s' t t' : State, s.ready → s'.ready → s.buffersCanonical → s'.buffersCanonical →
    s.params = s'.params → s.level = s'.level → s.mode = s'.mode → s.version = s'.version → s.msgLen = s'.msgLen →
    (∀ i, i < s.msgLen.toNat → s.msgByte i = s'.msgByte i) →
    Sys2Proof.core.run 6 { s with inputs := issueRun } = .next t →
    Sys2Proof.core.run 6 { s' with inputs := issueRun } = .next t' →
    t.fault = t'.fault ∧ t.done = t'.done ∧
    (t.done = true →
      t.dbits = t'.dbits ∧ t.dcwCount = t'.dcwCount ∧ t.streamBits = t'.streamBits ∧ t.maskSel = t'.maskSel ∧
      t.pen1 = t'.pen1 ∧ t.pen2 = t'.pen2 ∧ t.pen3 = t'.pen3 ∧ t.pen4 = t'.pen4 ∧ t.penTotal = t'.penTotal ∧
      t.penMask = t'.penMask ∧ t.gen = t'.gen ∧ t.genDeg = t'.genDeg ∧
      t.dcwValid = t'.dcwValid ∧ t.streamValid = t'.streamValid ∧ t.maskValid = t'.maskValid ∧
      (∀ j < t.dcwCount.toNat, t.dcwByte j = t'.dcwByte j) ∧
      (∀ q < (t.streamBits.toNat + 7) / 8, t.streamByte q = t'.streamByte q) ∧
      ∀ r < 177, ∀ c < 177, t.cell r c = t'.cell r c)

/-- Rule R252 with rules R86 and R210: the default REFDATA meets every condition of R86 for every level and version, the Empty
count FUNCPAT leaves among them, which is A(v) with the forty values of R210; and a RUN whose PACK completes completes, with the
default REFDATA or with one that meets R86 items (4), (5) and (7) for the configured level and version. -/
def Obligations.RunCompletesWhenPackDoes : Prop :=
  (∀ (level : Level) (v n : Nat) (p : Plan), 1 ≤ v → v ≤ 40 → n = 4 * v + 17 → p = refPlan defaultRefData level v →
    planOk p = true ∧
    (∀ c ∈ refAlignmentPairs defaultRefData v, 2 ≤ c.1 ∧ 2 ≤ c.2 ∧ c.1 ≤ n - 3 ∧ c.2 ≤ n - 3) ∧
    emptyCount n (functionPatterns v (refAlignmentPairs defaultRefData v)) =
      8 * (p.n1 * p.k1 + p.n2 * p.k2 + p.ec * (p.n1 + p.n2)) + refRemainderBits defaultRefData v ∧
    some (emptyCount n (functionPatterns v (refAlignmentPairs defaultRefData v))) = emptyCounts[v - 1]? ∧
    (∀ (mode : PackMode) (tier : Tier),
      1 ≤ refCcWidth defaultRefData mode tier ∧ refCcWidth defaultRefData mode tier ≤ 16) ∧
    8 * (p.n1 * p.k1 + p.n2 * p.k2 + p.ec * (p.n1 + p.n2)) + refRemainderBits defaultRefData v ≤ 8 * 3707) ∧
  ∀ (s : State) (mode : PackMode), s.ready → s.buffersCanonical → PackReady s mode →
    (s.params.refdata = defaultRefData ∨
      (FuncpatReady s ∧ configuredStreamLength s ≤ 8 * 3707 ∧
        emptyCount (configuredSide s)
          (functionPatterns s.versionNat (refAlignmentPairs s.params.refdata s.versionNat)) =
            configuredStreamLength s)) →
    ∃ t, Sys2Proof.core.run 6 { s with inputs := issueRun } = .next t ∧ t.done = true ∧ t.seq = .idle ∧
      t.fault = FaultReg.zero ∧ t.dcwValid = true ∧ t.streamValid = true ∧ t.maskValid = true ∧
      t.streamBits.toNat = configuredStreamLength s ∧
      ∀ r < configuredSide s, ∀ c < configuredSide s, t.cell r c ≠ emptyCell

/-! ### Invariants -/

/-- Every step, whatever the host does, keeps the buffers' canonical form, the handshake between BUSY, DONE and FAULT (rules
R263, R270, R296) and GEN's content (rule R43), and never changes the parameters (rule R4). -/
def Obligations.StepKeepsHandshake : Prop :=
  ∀ s t : State, s.buffersCanonical → s.Handshake → s.generatorCoherent → step s = .next t →
    t.buffersCanonical ∧ t.Handshake ∧ t.generatorCoherent ∧ t.params = s.params

/-- Rules R27, R28: DCW_VALID says that DCW holds what PACK builds from the current CFG, MSG_LEN and MSG; STREAM_VALID that
STREAM holds what INTERLEAVE builds from DCW. Every step keeps this. -/
def Obligations.StepKeepsValidity : Prop :=
  ∀ s t : State, s.Inv → step s = .next t → t.codewordsCurrent ∧ t.streamCurrent

/-- The invariants hold at reset. -/
def Obligations.ResetMeetsInvariants : Prop := State.reset.Inv
end

