-- ==== Sys2Proof/Laws/Field.lean ====
section
/-! SUPPORT. The tables of GF(256) are the field's (41_reed_solomon.md rule R161), and the first generator polynomials. -/

namespace Sys2Proof.Machine

/-- Over one period, each antilog is twice the one before (rule R161). -/
theorem expTable_step : ∀ e : Fin 255, gfExp (e.val + 1) = gfDouble (gfExp e.val) := by decide +kernel

theorem gfExp_mod (e : Nat) : gfExp (e % 255) = gfExp e := by simp [gfExp]

@[simp] theorem gfExp_zero : gfExp 0 = 1 := by decide

/-- exp(e + 1) = 2·exp(e) (rules R160, R161). -/
theorem gfExp_succ (e : Nat) : gfExp (e + 1) = gfDouble (gfExp e) := by
  have h := expTable_step ⟨e % 255, Nat.mod_lt _ (by decide)⟩
  simp only [gfExp_mod] at h
  rw [← h, ← gfExp_mod (e + 1), ← gfExp_mod (e % 255 + 1), Nat.mod_add_mod]

/-- exp inverts lg on the non-zero elements (rule R161). -/
theorem gfExp_gfLog : ∀ x : Byte, x ≠ 0 → gfExp (gfLog x) = x := by decide +kernel

/-- lg inverts exp on 0..254 (rule R161). -/
theorem gfLog_gfExp_lt : ∀ e : Fin 255, gfLog (gfExp e.val) = e.val := by decide +kernel

theorem gfLog_gfExp (e : Nat) : gfLog (gfExp e) = e % 255 := by
  have h := gfLog_gfExp_lt ⟨e % 255, Nat.mod_lt _ (by decide)⟩
  simpa only [gfExp_mod] using h

theorem gfExp_ne_zero_lt : ∀ e : Fin 255, gfExp e.val ≠ 0 := by decide +kernel

theorem gfExp_ne_zero (e : Nat) : gfExp e ≠ 0 := by
  have h := gfExp_ne_zero_lt ⟨e % 255, Nat.mod_lt _ (by decide)⟩
  simpa only [gfExp_mod] using h

/-- lg lies in 0..254 on the non-zero elements (rule R161). -/
theorem gfLog_lt : ∀ x : Byte, x ≠ 0 → gfLog x < 255 := by decide +kernel

/-- Rule R164's start: the pass for i = 0 gives [0, 0]. -/
theorem genpoly_one : genpoly 1 = [0, 0] := by decide

theorem genpoly_succ (n : Nat) : genpoly (n + 1) = (mulRoot (genpoly n) n).map gfLog := rfl

@[simp] theorem length_genpoly (n : Nat) : (genpoly n).length = n + 1 := by
  induction n with
  | zero => rfl
  | succ n ih => simp [genpoly_succ, mulRoot, ih]

theorem length_reduceStep (g : List Nat) (lead : Byte) (rest : List Byte) (h : g.length - 1 ≤ rest.length) :
    (reduceStep g lead rest).length = rest.length := by
  unfold reduceStep
  split
  · rfl
  · simp only [List.length_append, List.length_zipWith, List.length_take, List.length_map, List.length_tail, List.length_drop]
    omega

theorem length_divideSteps (g : List Nat) (k : Nat) (m : List Byte) (h : k + (g.length - 1) ≤ m.length) :
    (divideSteps g k m).length = m.length - k := by
  induction k generalizing m with
  | zero => simp [divideSteps]
  | succ k ih =>
    cases m with
    | nil => simp [divideSteps]
    | cons lead rest =>
      simp only [List.length_cons] at h ⊢
      rw [divideSteps, ih _ (by rw [length_reduceStep _ _ _ (by omega)]; omega), length_reduceStep _ _ _ (by omega)]
      omega

/-- rsRemainder gives n codewords (rule R165). -/
@[simp] theorem length_rsRemainder (d : List Byte) (n : Nat) : (rsRemainder d n).length = n := by
  rw [rsRemainder, length_divideSteps _ _ _ (by simp)]
  simp

end Sys2Proof.Machine
end

