-- ==== Sys2Proof/Laws/Memory.lean ====
section
/-! SUPPORT. The laws of a buffer's known contents: what each operation finds, and that each keeps the canonical form. -/

namespace Sys2Proof.Machine.Memory

variable {w : Nat}

@[simp] theorem find_nil (i : Nat) : Memory.find ([] : Memory w) i = none := rfl

theorem find_cons (j : Nat) (v : BitVec w) (m : Memory w) (i : Nat) :
    Memory.find ((j, v) :: m) i = if j = i then some v else Memory.find m i := rfl

/-- Nothing is found below the first index. -/
theorem find_eq_none_of_forall_ne {m : Memory w} {i : Nat} (h : ∀ x ∈ m, x.1 ≠ i) : m.find i = none := by
  induction m with
  | nil => rfl
  | cons x m ih =>
    obtain ⟨j, v⟩ := x
    rw [find_cons, if_neg (h (j, v) (by simp)), ih fun y hy => h y (by simp [hy])]

theorem find_append (m₁ m₂ : Memory w) (i : Nat) :
    Memory.find (m₁ ++ m₂) i = (m₁.find i).orElse fun _ => m₂.find i := by
  induction m₁ with
  | nil => simp
  | cons x m ih =>
    obtain ⟨j, v⟩ := x
    by_cases h : j = i <;> simp [find_cons, h, ih]

/-! ### One write -/

@[simp] theorem find_write (m : Memory w) (i k : Nat) (v : BitVec w) (hm : m.Pairwise fun a b => a.1 < b.1) :
    (m.write i v).find k = if i = k then some v else m.find k := by
  induction m with
  | nil => simp [Memory.write, find_cons]
  | cons x m ih =>
    obtain ⟨j, u⟩ := x
    have hm' := List.pairwise_cons.1 hm
    simp only [Memory.write]
    split
    · simp [find_cons]
    · split
      · next _ h => subst h; by_cases h : i = k <;> simp [find_cons, h]
      · next h₁ h₂ =>
        rw [find_cons, find_cons, ih hm'.2]
        by_cases h : j = k
        · have : i ≠ k := fun h' => h₂ (h'.trans h.symm)
          simp [h, this]
        · simp [h]

theorem mem_write {m : Memory w} {i : Nat} {v : BitVec w} {x : Nat × BitVec w} (hx : x ∈ m.write i v) :
    x = (i, v) ∨ x ∈ m := by
  induction m with
  | nil => simpa [Memory.write] using hx
  | cons y m ih =>
    obtain ⟨j, u⟩ := y
    simp only [Memory.write] at hx
    split at hx
    · simpa using hx
    · split at hx
      · rcases List.mem_cons.1 hx with h | h <;> simp [h]
      · rcases List.mem_cons.1 hx with h | h
        · simp [h]
        · rcases ih h with h | h <;> simp [h]

theorem write_sorted {m : Memory w} (i : Nat) (v : BitVec w) (hm : m.Pairwise fun a b => a.1 < b.1) :
    (m.write i v).Pairwise fun a b => a.1 < b.1 := by
  induction m with
  | nil => simp [Memory.write]
  | cons y m ih =>
    obtain ⟨j, u⟩ := y
    have hm' := List.pairwise_cons.1 hm
    simp only [Memory.write]
    split
    · next h =>
      refine List.pairwise_cons.2 ⟨fun x hx => ?_, hm⟩
      rcases List.mem_cons.1 hx with hx | hx
      · simpa [hx] using h
      · exact Nat.lt_trans h (hm'.1 x hx)
    · split
      · next _ h => subst h; exact List.pairwise_cons.2 hm'
      · next h₁ h₂ =>
        refine List.pairwise_cons.2 ⟨fun x hx => ?_, ih hm'.2⟩
        rcases mem_write hx with hx | hx
        · subst hx
          change j < i
          omega
        · exact hm'.1 x hx

/-- A write inside the buffer keeps the canonical form. -/
theorem write_wf {m : Memory w} {cap i : Nat} (v : BitVec w) (hm : m.wf cap) (hi : i < cap) : (m.write i v).wf cap := by
  refine ⟨write_sorted i v hm.1, fun x hx => ?_⟩
  rcases mem_write hx with hx | hx
  · simpa [hx] using hi
  · exact hm.2 x hx

/-! ### The writes of a commit block -/

theorem ofWrites_sorted (us : List (Nat × BitVec w)) : (ofWrites us).Pairwise fun a b => a.1 < b.1 := by
  induction us with
  | nil => simp [ofWrites]
  | cons u us ih => exact write_sorted u.1 u.2 ih

theorem mem_ofWrites {us : List (Nat × BitVec w)} {x : Nat × BitVec w} (hx : x ∈ ofWrites us) : x ∈ us := by
  induction us with
  | nil => simp [ofWrites] at hx
  | cons u us ih =>
    rcases mem_write (i := u.1) (v := u.2) hx with h | h
    · simp [h]
    · simp [ih h]

/-- What a list of writes leaves at an index: the first of them to it (each element is written once). -/
theorem find_ofWrites (us : List (Nat × BitVec w)) (k : Nat) : (ofWrites us).find k = Memory.find us k := by
  induction us with
  | nil => rfl
  | cons u us ih =>
    change ((ofWrites us).write u.1 u.2).find k = _
    rw [find_write _ _ _ _ (ofWrites_sorted us), ih]
    obtain ⟨j, v⟩ := u
    rfl

theorem mem_overlay {us m : Memory w} {x : Nat × BitVec w} (hx : x ∈ overlay us m) : x ∈ us ∨ x ∈ m := by
  induction us generalizing m with
  | nil => exact .inr hx
  | cons u us ih =>
    simp only [overlay, List.mem_append, List.mem_cons] at hx
    rcases hx with h | h | h
    · exact .inr ((List.takeWhile_prefix _).subset h)
    · exact .inl (by simp [h])
    · rcases ih h with h | h
      · exact .inl (by simp [h])
      · exact .inr ((List.dropWhile_suffix _).subset h)

/-- In a sorted memory, what is left after dropping the indexes up to `b` are those above `b`. -/
theorem mem_dropWhile_le {m : Memory w} (hm : m.Pairwise fun a b => a.1 < b.1) {b : Nat} {x : Nat × BitVec w} :
    x ∈ m.dropWhile (fun x => decide (x.1 ≤ b)) ↔ x ∈ m ∧ b < x.1 := by
  induction m with
  | nil => simp
  | cons y m ih =>
    have hm' := List.pairwise_cons.1 hm
    by_cases h : y.1 ≤ b
    · rw [List.dropWhile_cons_of_pos (by simpa using h), ih hm'.2]
      constructor
      · exact fun ⟨h₁, h₂⟩ => ⟨by simp [h₁], h₂⟩
      · rintro ⟨h₁, h₂⟩
        rcases List.mem_cons.1 h₁ with h₁ | h₁
        · subst h₁; omega
        · exact ⟨h₁, h₂⟩
    · rw [List.dropWhile_cons_of_neg (by simpa using h)]
      refine ⟨fun hx => ⟨hx, ?_⟩, fun h => h.1⟩
      rcases List.mem_cons.1 hx with hx | hx
      · subst hx; omega
      · have := hm'.1 x hx; omega

/-- In a sorted memory, the indexes taken while below `b` are those below `b`. -/
theorem mem_takeWhile_lt {m : Memory w} (hm : m.Pairwise fun a b => a.1 < b.1) {b : Nat} {x : Nat × BitVec w} :
    x ∈ m.takeWhile (fun x => decide (x.1 < b)) ↔ x ∈ m ∧ x.1 < b := by
  induction m with
  | nil => simp
  | cons y m ih =>
    have hm' := List.pairwise_cons.1 hm
    by_cases h : y.1 < b
    · rw [List.takeWhile_cons_of_pos (by simpa using h), List.mem_cons, List.mem_cons, ih hm'.2]
      constructor
      · rintro (h₁ | h₁)
        · exact ⟨.inl h₁, by simpa [h₁] using h⟩
        · exact ⟨.inr h₁.1, h₁.2⟩
      · rintro ⟨h₁ | h₁, h₂⟩
        · exact .inl h₁
        · exact .inr ⟨h₁, h₂⟩
    · rw [List.takeWhile_cons_of_neg (by simpa using h)]
      refine ⟨fun hx => by simp at hx, ?_⟩
      rintro ⟨h₁, h₂⟩
      rcases List.mem_cons.1 h₁ with h₁ | h₁
      · subst h₁; omega
      · have := hm'.1 x h₁; omega

theorem overlay_sorted {us m : Memory w} (hu : us.Pairwise fun a b => a.1 < b.1)
    (hm : m.Pairwise fun a b => a.1 < b.1) : (overlay us m).Pairwise fun a b => a.1 < b.1 := by
  induction us generalizing m with
  | nil => exact hm
  | cons u us ih =>
    have hu' := List.pairwise_cons.1 hu
    have hd : (m.dropWhile fun x => decide (x.1 ≤ u.1)).Pairwise fun a b => a.1 < b.1 :=
      hm.sublist (List.dropWhile_sublist _)
    have above : ∀ x ∈ overlay us (m.dropWhile fun x => decide (x.1 ≤ u.1)), u.1 < x.1 := fun x hx => by
      rcases mem_overlay hx with h | h
      · exact hu'.1 x h
      · exact ((mem_dropWhile_le hm).1 h).2
    refine List.pairwise_append.2 ⟨hm.sublist (List.takeWhile_sublist _), List.pairwise_cons.2 ⟨above, ih hu'.2 hd⟩, ?_⟩
    intro a ha b hb
    have hau := ((mem_takeWhile_lt hm).1 ha).2
    rcases List.mem_cons.1 hb with hb | hb
    · subst hb; exact hau
    · exact Nat.lt_trans hau (above b hb)

/-- A sorted memory finds exactly its members. -/
theorem find_eq_some_iff {m : Memory w} (hm : m.Pairwise fun a b => a.1 < b.1) {i : Nat} {v : BitVec w} :
    m.find i = some v ↔ (i, v) ∈ m := by
  induction m with
  | nil => simp
  | cons y m ih =>
    obtain ⟨j, u⟩ := y
    have hm' := List.pairwise_cons.1 hm
    rw [find_cons]
    by_cases h : j = i
    · subst h
      constructor
      · intro hv; simp_all
      · intro hv
        rcases List.mem_cons.1 hv with hv | hv
        · simp_all
        · exact absurd (hm'.1 _ hv) (by simp)
    · rw [if_neg h, ih hm'.2, List.mem_cons]
      constructor
      · exact .inr
      · rintro (hv | hv)
        · simp_all
        · exact hv

theorem find_eq_none_iff {m : Memory w} (hm : m.Pairwise fun a b => a.1 < b.1) {i : Nat} :
    m.find i = none ↔ ∀ v, (i, v) ∉ m := by
  constructor
  · intro h v hv
    rw [(find_eq_some_iff hm).2 hv] at h
    simp at h
  · intro h
    cases hf : m.find i with
    | none => rfl
    | some v => exact absurd ((find_eq_some_iff hm).1 hf) (h v)

theorem mem_overlay_iff {us m : Memory w} (hu : us.Pairwise fun a b => a.1 < b.1)
    (hm : m.Pairwise fun a b => a.1 < b.1) {x : Nat × BitVec w} :
    x ∈ overlay us m ↔ x ∈ us ∨ (x ∈ m ∧ ∀ v, (x.1, v) ∉ us) := by
  induction us generalizing m with
  | nil => simp [overlay]
  | cons u us ih =>
    have hu' := List.pairwise_cons.1 hu
    have hd : (m.dropWhile fun x => decide (x.1 ≤ u.1)).Pairwise fun a b => a.1 < b.1 :=
      hm.sublist (List.dropWhile_sublist _)
    simp only [overlay, List.mem_append, List.mem_cons, ih hu'.2 hd, mem_dropWhile_le hm, mem_takeWhile_lt hm]
    constructor
    · rintro (⟨h₁, h₂⟩ | h | h | ⟨⟨h₁, h₂⟩, h₃⟩)
      · refine .inr ⟨h₁, fun v hv => ?_⟩
        rcases hv with hv | hv
        · subst hv; exact absurd h₂ (Nat.lt_irrefl _)
        · have := hu'.1 _ hv; exact absurd (Nat.lt_trans h₂ this) (Nat.lt_irrefl _)
      · exact .inl (.inl h)
      · exact .inl (.inr h)
      · refine .inr ⟨h₁, fun v hv => ?_⟩
        rcases hv with hv | hv
        · subst hv; exact absurd h₂ (Nat.lt_irrefl _)
        · exact h₃ v hv
    · rintro ((h | h) | ⟨h₁, h₂⟩)
      · exact .inr (.inl h)
      · exact .inr (.inr (.inl h))
      · rcases Nat.lt_trichotomy x.1 u.1 with h | h | h
        · exact .inl ⟨h₁, h⟩
        · exact absurd (.inl (by rw [h])) (h₂ u.2)
        · exact .inr (.inr (.inr ⟨⟨h₁, h⟩, fun v hv => h₂ v (.inr hv)⟩))

/-- An overlay finds the new value where there is one, the old value elsewhere. -/
theorem find_overlay {us m : Memory w} (hu : us.Pairwise fun a b => a.1 < b.1)
    (hm : m.Pairwise fun a b => a.1 < b.1) (k : Nat) :
    (overlay us m).find k = (us.find k).orElse fun _ => m.find k := by
  cases h : us.find k with
  | some v =>
    rw [Option.orElse_some, find_eq_some_iff (overlay_sorted hu hm), mem_overlay_iff hu hm]
    exact .inl ((find_eq_some_iff hu).1 h)
  | none =>
    have hn := (find_eq_none_iff hu).1 h
    rw [Option.orElse_none]
    cases h' : m.find k with
    | some v =>
      rw [find_eq_some_iff (overlay_sorted hu hm), mem_overlay_iff hu hm]
      exact .inr ⟨(find_eq_some_iff hm).1 h', hn⟩
    | none =>
      rw [find_eq_none_iff (overlay_sorted hu hm)]
      intro v hv
      rcases (mem_overlay_iff hu hm).1 hv with hv | hv
      · exact hn v hv
      · exact (find_eq_none_iff hm).1 h' v hv.1

/-- A commit block: an element it writes holds the new value, every other one what it held. -/
theorem find_commit {m : Memory w} (us : List (Nat × BitVec w)) (hm : m.Pairwise fun a b => a.1 < b.1) (k : Nat) :
    (m.commit us).find k = (Memory.find us k).orElse fun _ => m.find k := by
  rw [commit, find_overlay (ofWrites_sorted us) hm, find_ofWrites]

/-- A commit block inside the buffer keeps the canonical form. -/
theorem commit_wf {m : Memory w} {cap : Nat} {us : List (Nat × BitVec w)} (hm : m.wf cap) (hu : ∀ x ∈ us, x.1 < cap) :
    (m.commit us).wf cap := by
  refine ⟨overlay_sorted (ofWrites_sorted us) hm.1, fun x hx => ?_⟩
  rcases mem_overlay hx with h | h
  · exact hu x (mem_ofWrites h)
  · exact hm.2 x h

theorem nil_wf (cap : Nat) : Memory.wf cap ([] : Memory w) := ⟨List.Pairwise.nil, by simp⟩

/-- Equal memories are equal data: two canonical memories that find the same everywhere are the same list. -/
theorem ext_of_find {m₁ m₂ : Memory w} (h₁ : m₁.Pairwise fun a b => a.1 < b.1) (h₂ : m₂.Pairwise fun a b => a.1 < b.1)
    (h : ∀ i, m₁.find i = m₂.find i) : m₁ = m₂ := by
  have hmem : ∀ x, x ∈ m₁ ↔ x ∈ m₂ := fun x => by
    rw [← find_eq_some_iff (i := x.1) (v := x.2) h₁, h, find_eq_some_iff h₂]
  have nd : ∀ {m : Memory w}, m.Pairwise (fun a b => a.1 < b.1) → m.Nodup := fun hm =>
    hm.imp fun hab heq => by rw [heq] at hab; exact Nat.lt_irrefl _ hab
  refine List.Perm.eq_of_pairwise (le := fun a b => a.1 < b.1) (fun a b _ _ hab hba => ?_) h₁ h₂
    ((List.perm_ext_iff_of_nodup (nd h₁) (nd h₂)).2 hmem)
  exact absurd (Nat.lt_trans hab hba) (Nat.lt_irrefl _)

/-! ### Consecutive writes -/

theorem find_writesFrom (vs : List (BitVec w)) (base k : Nat) :
    Memory.find (writesFrom base vs) k = if base ≤ k then vs[k - base]? else none := by
  induction vs generalizing base with
  | nil => simp [writesFrom]
  | cons v vs ih =>
    rw [writesFrom, find_cons, ih]
    rcases Nat.lt_trichotomy base k with h | h | h
    · obtain ⟨d, rfl⟩ := Nat.exists_eq_add_of_lt h
      rw [if_neg (by omega), if_pos (by omega), if_pos (by omega),
        show base + d + 1 - base = (base + d + 1 - (base + 1)) + 1 by omega, List.getElem?_cons_succ]
    · subst h; simp
    · rw [if_neg (by omega), if_neg (by omega), if_neg (by omega)]

theorem mem_writesFrom {vs : List (BitVec w)} {base : Nat} {x : Nat × BitVec w} (hx : x ∈ writesFrom base vs) :
    base ≤ x.1 ∧ x.1 < base + vs.length := by
  induction vs generalizing base with
  | nil => simp [writesFrom] at hx
  | cons v vs ih =>
    rcases List.mem_cons.1 hx with h | h
    · subst h; simp
    · have := ih h; simp; omega

end Sys2Proof.Machine.Memory
end

