-- ==== Sys2Proof/Laws/State.lean ====
section
/-! SUPPORT. One lemma per field for each shared update of the state, true by rfl, so that no later proof unfolds a record
update. -/

namespace Sys2Proof.Machine

open Sys2Proof.Config

section
variable (s : State) (op : Byte) (r : Raised)

@[simp] theorem State.raise_ie : (s.raise op r).ie = s.ie := rfl
@[simp] theorem State.raise_done : (s.raise op r).done = s.done := rfl
@[simp] theorem State.raise_dcwValid : (s.raise op r).dcwValid = s.dcwValid := rfl
@[simp] theorem State.raise_streamValid : (s.raise op r).streamValid = s.streamValid := rfl
@[simp] theorem State.raise_dropped : (s.raise op r).dropped = s.dropped := rfl
@[simp] theorem State.raise_maskValid : (s.raise op r).maskValid = s.maskValid := rfl
@[simp] theorem State.raise_fault : (s.raise op r).fault = ⟨r.code, op, r.info⟩ := rfl
@[simp] theorem State.raise_level : (s.raise op r).level = s.level := rfl
@[simp] theorem State.raise_mode : (s.raise op r).mode = s.mode := rfl
@[simp] theorem State.raise_version : (s.raise op r).version = s.version := rfl
@[simp] theorem State.raise_msgLen : (s.raise op r).msgLen = s.msgLen := rfl
@[simp] theorem State.raise_rsK : (s.raise op r).rsK = s.rsK := rfl
@[simp] theorem State.raise_dbits : (s.raise op r).dbits = s.dbits := rfl
@[simp] theorem State.raise_dcwCount : (s.raise op r).dcwCount = s.dcwCount := rfl
@[simp] theorem State.raise_streamBits : (s.raise op r).streamBits = s.streamBits := rfl
@[simp] theorem State.raise_maskSel : (s.raise op r).maskSel = s.maskSel := rfl
@[simp] theorem State.raise_pen1 : (s.raise op r).pen1 = s.pen1 := rfl
@[simp] theorem State.raise_pen2 : (s.raise op r).pen2 = s.pen2 := rfl
@[simp] theorem State.raise_pen3 : (s.raise op r).pen3 = s.pen3 := rfl
@[simp] theorem State.raise_pen4 : (s.raise op r).pen4 = s.pen4 := rfl
@[simp] theorem State.raise_penTotal : (s.raise op r).penTotal = s.penTotal := rfl
@[simp] theorem State.raise_genDeg : (s.raise op r).genDeg = s.genDeg := rfl
@[simp] theorem State.raise_penMask : (s.raise op r).penMask = s.penMask := rfl
@[simp] theorem State.raise_gen : (s.raise op r).gen = s.gen := rfl
@[simp] theorem State.raise_msg : (s.raise op r).msg = s.msg := rfl
@[simp] theorem State.raise_dcw : (s.raise op r).dcw = s.dcw := rfl
@[simp] theorem State.raise_stream : (s.raise op r).stream = s.stream := rfl
@[simp] theorem State.raise_rsbuf : (s.raise op r).rsbuf = s.rsbuf := rfl
@[simp] theorem State.raise_rsec : (s.raise op r).rsec = s.rsec := rfl
@[simp] theorem State.raise_matrix : (s.raise op r).matrix = s.matrix := rfl
@[simp] theorem State.raise_seq : (s.raise op r).seq = .idle := rfl
@[simp] theorem State.raise_inputs : (s.raise op r).inputs = s.inputs := rfl
@[simp] theorem State.raise_reply : (s.raise op r).reply = s.reply := rfl
@[simp] theorem State.raise_draws : (s.raise op r).draws = s.draws := rfl
@[simp] theorem State.raise_epoch : (s.raise op r).epoch = s.epoch := rfl
@[simp] theorem State.raise_params : (s.raise op r).params = s.params := rfl

end

section
variable (s : State)

@[simp] theorem State.complete_ie : (s.complete).ie = s.ie := rfl
@[simp] theorem State.complete_done : (s.complete).done = true := rfl
@[simp] theorem State.complete_dcwValid : (s.complete).dcwValid = s.dcwValid := rfl
@[simp] theorem State.complete_streamValid : (s.complete).streamValid = s.streamValid := rfl
@[simp] theorem State.complete_dropped : (s.complete).dropped = s.dropped := rfl
@[simp] theorem State.complete_maskValid : (s.complete).maskValid = s.maskValid := rfl
@[simp] theorem State.complete_fault : (s.complete).fault = s.fault := rfl
@[simp] theorem State.complete_level : (s.complete).level = s.level := rfl
@[simp] theorem State.complete_mode : (s.complete).mode = s.mode := rfl
@[simp] theorem State.complete_version : (s.complete).version = s.version := rfl
@[simp] theorem State.complete_msgLen : (s.complete).msgLen = s.msgLen := rfl
@[simp] theorem State.complete_rsK : (s.complete).rsK = s.rsK := rfl
@[simp] theorem State.complete_dbits : (s.complete).dbits = s.dbits := rfl
@[simp] theorem State.complete_dcwCount : (s.complete).dcwCount = s.dcwCount := rfl
@[simp] theorem State.complete_streamBits : (s.complete).streamBits = s.streamBits := rfl
@[simp] theorem State.complete_maskSel : (s.complete).maskSel = s.maskSel := rfl
@[simp] theorem State.complete_pen1 : (s.complete).pen1 = s.pen1 := rfl
@[simp] theorem State.complete_pen2 : (s.complete).pen2 = s.pen2 := rfl
@[simp] theorem State.complete_pen3 : (s.complete).pen3 = s.pen3 := rfl
@[simp] theorem State.complete_pen4 : (s.complete).pen4 = s.pen4 := rfl
@[simp] theorem State.complete_penTotal : (s.complete).penTotal = s.penTotal := rfl
@[simp] theorem State.complete_genDeg : (s.complete).genDeg = s.genDeg := rfl
@[simp] theorem State.complete_penMask : (s.complete).penMask = s.penMask := rfl
@[simp] theorem State.complete_gen : (s.complete).gen = s.gen := rfl
@[simp] theorem State.complete_msg : (s.complete).msg = s.msg := rfl
@[simp] theorem State.complete_dcw : (s.complete).dcw = s.dcw := rfl
@[simp] theorem State.complete_stream : (s.complete).stream = s.stream := rfl
@[simp] theorem State.complete_rsbuf : (s.complete).rsbuf = s.rsbuf := rfl
@[simp] theorem State.complete_rsec : (s.complete).rsec = s.rsec := rfl
@[simp] theorem State.complete_matrix : (s.complete).matrix = s.matrix := rfl
@[simp] theorem State.complete_seq : (s.complete).seq = .idle := rfl
@[simp] theorem State.complete_inputs : (s.complete).inputs = s.inputs := rfl
@[simp] theorem State.complete_reply : (s.complete).reply = s.reply := rfl
@[simp] theorem State.complete_draws : (s.complete).draws = s.draws := rfl
@[simp] theorem State.complete_epoch : (s.complete).epoch = s.epoch := rfl
@[simp] theorem State.complete_params : (s.complete).params = s.params := rfl

end

section
variable (s : State)

@[simp] theorem State.clearFault_ie : (s.clearFault).ie = s.ie := rfl
@[simp] theorem State.clearFault_done : (s.clearFault).done = s.done := rfl
@[simp] theorem State.clearFault_dcwValid : (s.clearFault).dcwValid = s.dcwValid := rfl
@[simp] theorem State.clearFault_streamValid : (s.clearFault).streamValid = s.streamValid := rfl
@[simp] theorem State.clearFault_dropped : (s.clearFault).dropped = s.dropped := rfl
@[simp] theorem State.clearFault_maskValid : (s.clearFault).maskValid = s.maskValid := rfl
@[simp] theorem State.clearFault_fault : (s.clearFault).fault = FaultReg.zero := rfl
@[simp] theorem State.clearFault_level : (s.clearFault).level = s.level := rfl
@[simp] theorem State.clearFault_mode : (s.clearFault).mode = s.mode := rfl
@[simp] theorem State.clearFault_version : (s.clearFault).version = s.version := rfl
@[simp] theorem State.clearFault_msgLen : (s.clearFault).msgLen = s.msgLen := rfl
@[simp] theorem State.clearFault_rsK : (s.clearFault).rsK = s.rsK := rfl
@[simp] theorem State.clearFault_dbits : (s.clearFault).dbits = s.dbits := rfl
@[simp] theorem State.clearFault_dcwCount : (s.clearFault).dcwCount = s.dcwCount := rfl
@[simp] theorem State.clearFault_streamBits : (s.clearFault).streamBits = s.streamBits := rfl
@[simp] theorem State.clearFault_maskSel : (s.clearFault).maskSel = s.maskSel := rfl
@[simp] theorem State.clearFault_pen1 : (s.clearFault).pen1 = s.pen1 := rfl
@[simp] theorem State.clearFault_pen2 : (s.clearFault).pen2 = s.pen2 := rfl
@[simp] theorem State.clearFault_pen3 : (s.clearFault).pen3 = s.pen3 := rfl
@[simp] theorem State.clearFault_pen4 : (s.clearFault).pen4 = s.pen4 := rfl
@[simp] theorem State.clearFault_penTotal : (s.clearFault).penTotal = s.penTotal := rfl
@[simp] theorem State.clearFault_genDeg : (s.clearFault).genDeg = s.genDeg := rfl
@[simp] theorem State.clearFault_penMask : (s.clearFault).penMask = s.penMask := rfl
@[simp] theorem State.clearFault_gen : (s.clearFault).gen = s.gen := rfl
@[simp] theorem State.clearFault_msg : (s.clearFault).msg = s.msg := rfl
@[simp] theorem State.clearFault_dcw : (s.clearFault).dcw = s.dcw := rfl
@[simp] theorem State.clearFault_stream : (s.clearFault).stream = s.stream := rfl
@[simp] theorem State.clearFault_rsbuf : (s.clearFault).rsbuf = s.rsbuf := rfl
@[simp] theorem State.clearFault_rsec : (s.clearFault).rsec = s.rsec := rfl
@[simp] theorem State.clearFault_matrix : (s.clearFault).matrix = s.matrix := rfl
@[simp] theorem State.clearFault_seq : (s.clearFault).seq = s.seq := rfl
@[simp] theorem State.clearFault_inputs : (s.clearFault).inputs = s.inputs := rfl
@[simp] theorem State.clearFault_reply : (s.clearFault).reply = s.reply := rfl
@[simp] theorem State.clearFault_draws : (s.clearFault).draws = s.draws := rfl
@[simp] theorem State.clearFault_epoch : (s.clearFault).epoch = s.epoch := rfl
@[simp] theorem State.clearFault_params : (s.clearFault).params = s.params := rfl

end

section
variable (s : State)

@[simp] theorem State.drop_ie : (s.drop).ie = s.ie := rfl
@[simp] theorem State.drop_done : (s.drop).done = s.done := rfl
@[simp] theorem State.drop_dcwValid : (s.drop).dcwValid = s.dcwValid := rfl
@[simp] theorem State.drop_streamValid : (s.drop).streamValid = s.streamValid := rfl
@[simp] theorem State.drop_dropped : (s.drop).dropped = true := rfl
@[simp] theorem State.drop_maskValid : (s.drop).maskValid = s.maskValid := rfl
@[simp] theorem State.drop_fault : (s.drop).fault = s.fault := rfl
@[simp] theorem State.drop_level : (s.drop).level = s.level := rfl
@[simp] theorem State.drop_mode : (s.drop).mode = s.mode := rfl
@[simp] theorem State.drop_version : (s.drop).version = s.version := rfl
@[simp] theorem State.drop_msgLen : (s.drop).msgLen = s.msgLen := rfl
@[simp] theorem State.drop_rsK : (s.drop).rsK = s.rsK := rfl
@[simp] theorem State.drop_dbits : (s.drop).dbits = s.dbits := rfl
@[simp] theorem State.drop_dcwCount : (s.drop).dcwCount = s.dcwCount := rfl
@[simp] theorem State.drop_streamBits : (s.drop).streamBits = s.streamBits := rfl
@[simp] theorem State.drop_maskSel : (s.drop).maskSel = s.maskSel := rfl
@[simp] theorem State.drop_pen1 : (s.drop).pen1 = s.pen1 := rfl
@[simp] theorem State.drop_pen2 : (s.drop).pen2 = s.pen2 := rfl
@[simp] theorem State.drop_pen3 : (s.drop).pen3 = s.pen3 := rfl
@[simp] theorem State.drop_pen4 : (s.drop).pen4 = s.pen4 := rfl
@[simp] theorem State.drop_penTotal : (s.drop).penTotal = s.penTotal := rfl
@[simp] theorem State.drop_genDeg : (s.drop).genDeg = s.genDeg := rfl
@[simp] theorem State.drop_penMask : (s.drop).penMask = s.penMask := rfl
@[simp] theorem State.drop_gen : (s.drop).gen = s.gen := rfl
@[simp] theorem State.drop_msg : (s.drop).msg = s.msg := rfl
@[simp] theorem State.drop_dcw : (s.drop).dcw = s.dcw := rfl
@[simp] theorem State.drop_stream : (s.drop).stream = s.stream := rfl
@[simp] theorem State.drop_rsbuf : (s.drop).rsbuf = s.rsbuf := rfl
@[simp] theorem State.drop_rsec : (s.drop).rsec = s.rsec := rfl
@[simp] theorem State.drop_matrix : (s.drop).matrix = s.matrix := rfl
@[simp] theorem State.drop_seq : (s.drop).seq = s.seq := rfl
@[simp] theorem State.drop_inputs : (s.drop).inputs = s.inputs := rfl
@[simp] theorem State.drop_reply : (s.drop).reply = s.reply := rfl
@[simp] theorem State.drop_draws : (s.drop).draws = s.draws := rfl
@[simp] theorem State.drop_epoch : (s.drop).epoch = s.epoch := rfl
@[simp] theorem State.drop_params : (s.drop).params = s.params := rfl

end

section
variable (s : State)

@[simp] theorem State.invalidateCodewords_ie : (s.invalidateCodewords).ie = s.ie := rfl
@[simp] theorem State.invalidateCodewords_done : (s.invalidateCodewords).done = s.done := rfl
@[simp] theorem State.invalidateCodewords_dcwValid : (s.invalidateCodewords).dcwValid = false := rfl
@[simp] theorem State.invalidateCodewords_streamValid : (s.invalidateCodewords).streamValid = false := rfl
@[simp] theorem State.invalidateCodewords_dropped : (s.invalidateCodewords).dropped = s.dropped := rfl
@[simp] theorem State.invalidateCodewords_maskValid : (s.invalidateCodewords).maskValid = s.maskValid := rfl
@[simp] theorem State.invalidateCodewords_fault : (s.invalidateCodewords).fault = s.fault := rfl
@[simp] theorem State.invalidateCodewords_level : (s.invalidateCodewords).level = s.level := rfl
@[simp] theorem State.invalidateCodewords_mode : (s.invalidateCodewords).mode = s.mode := rfl
@[simp] theorem State.invalidateCodewords_version : (s.invalidateCodewords).version = s.version := rfl
@[simp] theorem State.invalidateCodewords_msgLen : (s.invalidateCodewords).msgLen = s.msgLen := rfl
@[simp] theorem State.invalidateCodewords_rsK : (s.invalidateCodewords).rsK = s.rsK := rfl
@[simp] theorem State.invalidateCodewords_dbits : (s.invalidateCodewords).dbits = s.dbits := rfl
@[simp] theorem State.invalidateCodewords_dcwCount : (s.invalidateCodewords).dcwCount = s.dcwCount := rfl
@[simp] theorem State.invalidateCodewords_streamBits : (s.invalidateCodewords).streamBits = s.streamBits := rfl
@[simp] theorem State.invalidateCodewords_maskSel : (s.invalidateCodewords).maskSel = s.maskSel := rfl
@[simp] theorem State.invalidateCodewords_pen1 : (s.invalidateCodewords).pen1 = s.pen1 := rfl
@[simp] theorem State.invalidateCodewords_pen2 : (s.invalidateCodewords).pen2 = s.pen2 := rfl
@[simp] theorem State.invalidateCodewords_pen3 : (s.invalidateCodewords).pen3 = s.pen3 := rfl
@[simp] theorem State.invalidateCodewords_pen4 : (s.invalidateCodewords).pen4 = s.pen4 := rfl
@[simp] theorem State.invalidateCodewords_penTotal : (s.invalidateCodewords).penTotal = s.penTotal := rfl
@[simp] theorem State.invalidateCodewords_genDeg : (s.invalidateCodewords).genDeg = s.genDeg := rfl
@[simp] theorem State.invalidateCodewords_penMask : (s.invalidateCodewords).penMask = s.penMask := rfl
@[simp] theorem State.invalidateCodewords_gen : (s.invalidateCodewords).gen = s.gen := rfl
@[simp] theorem State.invalidateCodewords_msg : (s.invalidateCodewords).msg = s.msg := rfl
@[simp] theorem State.invalidateCodewords_dcw : (s.invalidateCodewords).dcw = s.dcw := rfl
@[simp] theorem State.invalidateCodewords_stream : (s.invalidateCodewords).stream = s.stream := rfl
@[simp] theorem State.invalidateCodewords_rsbuf : (s.invalidateCodewords).rsbuf = s.rsbuf := rfl
@[simp] theorem State.invalidateCodewords_rsec : (s.invalidateCodewords).rsec = s.rsec := rfl
@[simp] theorem State.invalidateCodewords_matrix : (s.invalidateCodewords).matrix = s.matrix := rfl
@[simp] theorem State.invalidateCodewords_seq : (s.invalidateCodewords).seq = s.seq := rfl
@[simp] theorem State.invalidateCodewords_inputs : (s.invalidateCodewords).inputs = s.inputs := rfl
@[simp] theorem State.invalidateCodewords_reply : (s.invalidateCodewords).reply = s.reply := rfl
@[simp] theorem State.invalidateCodewords_draws : (s.invalidateCodewords).draws = s.draws := rfl
@[simp] theorem State.invalidateCodewords_epoch : (s.invalidateCodewords).epoch = s.epoch := rfl
@[simp] theorem State.invalidateCodewords_params : (s.invalidateCodewords).params = s.params := rfl

end

section
variable (s : State) (m : Matrix)

@[simp] theorem State.setWholeMatrix_ie : (s.setWholeMatrix m).ie = s.ie := rfl
@[simp] theorem State.setWholeMatrix_done : (s.setWholeMatrix m).done = s.done := rfl
@[simp] theorem State.setWholeMatrix_dcwValid : (s.setWholeMatrix m).dcwValid = s.dcwValid := rfl
@[simp] theorem State.setWholeMatrix_streamValid : (s.setWholeMatrix m).streamValid = s.streamValid := rfl
@[simp] theorem State.setWholeMatrix_dropped : (s.setWholeMatrix m).dropped = s.dropped := rfl
@[simp] theorem State.setWholeMatrix_maskValid : (s.setWholeMatrix m).maskValid = s.maskValid := rfl
@[simp] theorem State.setWholeMatrix_fault : (s.setWholeMatrix m).fault = s.fault := rfl
@[simp] theorem State.setWholeMatrix_level : (s.setWholeMatrix m).level = s.level := rfl
@[simp] theorem State.setWholeMatrix_mode : (s.setWholeMatrix m).mode = s.mode := rfl
@[simp] theorem State.setWholeMatrix_version : (s.setWholeMatrix m).version = s.version := rfl
@[simp] theorem State.setWholeMatrix_msgLen : (s.setWholeMatrix m).msgLen = s.msgLen := rfl
@[simp] theorem State.setWholeMatrix_rsK : (s.setWholeMatrix m).rsK = s.rsK := rfl
@[simp] theorem State.setWholeMatrix_dbits : (s.setWholeMatrix m).dbits = s.dbits := rfl
@[simp] theorem State.setWholeMatrix_dcwCount : (s.setWholeMatrix m).dcwCount = s.dcwCount := rfl
@[simp] theorem State.setWholeMatrix_streamBits : (s.setWholeMatrix m).streamBits = s.streamBits := rfl
@[simp] theorem State.setWholeMatrix_maskSel : (s.setWholeMatrix m).maskSel = s.maskSel := rfl
@[simp] theorem State.setWholeMatrix_pen1 : (s.setWholeMatrix m).pen1 = s.pen1 := rfl
@[simp] theorem State.setWholeMatrix_pen2 : (s.setWholeMatrix m).pen2 = s.pen2 := rfl
@[simp] theorem State.setWholeMatrix_pen3 : (s.setWholeMatrix m).pen3 = s.pen3 := rfl
@[simp] theorem State.setWholeMatrix_pen4 : (s.setWholeMatrix m).pen4 = s.pen4 := rfl
@[simp] theorem State.setWholeMatrix_penTotal : (s.setWholeMatrix m).penTotal = s.penTotal := rfl
@[simp] theorem State.setWholeMatrix_genDeg : (s.setWholeMatrix m).genDeg = s.genDeg := rfl
@[simp] theorem State.setWholeMatrix_penMask : (s.setWholeMatrix m).penMask = s.penMask := rfl
@[simp] theorem State.setWholeMatrix_gen : (s.setWholeMatrix m).gen = s.gen := rfl
@[simp] theorem State.setWholeMatrix_msg : (s.setWholeMatrix m).msg = s.msg := rfl
@[simp] theorem State.setWholeMatrix_dcw : (s.setWholeMatrix m).dcw = s.dcw := rfl
@[simp] theorem State.setWholeMatrix_stream : (s.setWholeMatrix m).stream = s.stream := rfl
@[simp] theorem State.setWholeMatrix_rsbuf : (s.setWholeMatrix m).rsbuf = s.rsbuf := rfl
@[simp] theorem State.setWholeMatrix_rsec : (s.setWholeMatrix m).rsec = s.rsec := rfl
@[simp] theorem State.setWholeMatrix_matrix : (s.setWholeMatrix m).matrix = wholeMatrix m := rfl
@[simp] theorem State.setWholeMatrix_seq : (s.setWholeMatrix m).seq = s.seq := rfl
@[simp] theorem State.setWholeMatrix_inputs : (s.setWholeMatrix m).inputs = s.inputs := rfl
@[simp] theorem State.setWholeMatrix_reply : (s.setWholeMatrix m).reply = s.reply := rfl
@[simp] theorem State.setWholeMatrix_draws : (s.setWholeMatrix m).draws = s.draws := rfl
@[simp] theorem State.setWholeMatrix_epoch : (s.setWholeMatrix m).epoch = s.epoch := rfl
@[simp] theorem State.setWholeMatrix_params : (s.setWholeMatrix m).params = s.params := rfl

end

section
variable (s : State) (n : Nat) (old new : Matrix)

@[simp] theorem State.setMatrixN_ie : (s.setMatrixN n old new).ie = s.ie := rfl
@[simp] theorem State.setMatrixN_done : (s.setMatrixN n old new).done = s.done := rfl
@[simp] theorem State.setMatrixN_dcwValid : (s.setMatrixN n old new).dcwValid = s.dcwValid := rfl
@[simp] theorem State.setMatrixN_streamValid : (s.setMatrixN n old new).streamValid = s.streamValid := rfl
@[simp] theorem State.setMatrixN_dropped : (s.setMatrixN n old new).dropped = s.dropped := rfl
@[simp] theorem State.setMatrixN_maskValid : (s.setMatrixN n old new).maskValid = s.maskValid := rfl
@[simp] theorem State.setMatrixN_fault : (s.setMatrixN n old new).fault = s.fault := rfl
@[simp] theorem State.setMatrixN_level : (s.setMatrixN n old new).level = s.level := rfl
@[simp] theorem State.setMatrixN_mode : (s.setMatrixN n old new).mode = s.mode := rfl
@[simp] theorem State.setMatrixN_version : (s.setMatrixN n old new).version = s.version := rfl
@[simp] theorem State.setMatrixN_msgLen : (s.setMatrixN n old new).msgLen = s.msgLen := rfl
@[simp] theorem State.setMatrixN_rsK : (s.setMatrixN n old new).rsK = s.rsK := rfl
@[simp] theorem State.setMatrixN_dbits : (s.setMatrixN n old new).dbits = s.dbits := rfl
@[simp] theorem State.setMatrixN_dcwCount : (s.setMatrixN n old new).dcwCount = s.dcwCount := rfl
@[simp] theorem State.setMatrixN_streamBits : (s.setMatrixN n old new).streamBits = s.streamBits := rfl
@[simp] theorem State.setMatrixN_maskSel : (s.setMatrixN n old new).maskSel = s.maskSel := rfl
@[simp] theorem State.setMatrixN_pen1 : (s.setMatrixN n old new).pen1 = s.pen1 := rfl
@[simp] theorem State.setMatrixN_pen2 : (s.setMatrixN n old new).pen2 = s.pen2 := rfl
@[simp] theorem State.setMatrixN_pen3 : (s.setMatrixN n old new).pen3 = s.pen3 := rfl
@[simp] theorem State.setMatrixN_pen4 : (s.setMatrixN n old new).pen4 = s.pen4 := rfl
@[simp] theorem State.setMatrixN_penTotal : (s.setMatrixN n old new).penTotal = s.penTotal := rfl
@[simp] theorem State.setMatrixN_genDeg : (s.setMatrixN n old new).genDeg = s.genDeg := rfl
@[simp] theorem State.setMatrixN_penMask : (s.setMatrixN n old new).penMask = s.penMask := rfl
@[simp] theorem State.setMatrixN_gen : (s.setMatrixN n old new).gen = s.gen := rfl
@[simp] theorem State.setMatrixN_msg : (s.setMatrixN n old new).msg = s.msg := rfl
@[simp] theorem State.setMatrixN_dcw : (s.setMatrixN n old new).dcw = s.dcw := rfl
@[simp] theorem State.setMatrixN_stream : (s.setMatrixN n old new).stream = s.stream := rfl
@[simp] theorem State.setMatrixN_rsbuf : (s.setMatrixN n old new).rsbuf = s.rsbuf := rfl
@[simp] theorem State.setMatrixN_rsec : (s.setMatrixN n old new).rsec = s.rsec := rfl
@[simp] theorem State.setMatrixN_matrix : (s.setMatrixN n old new).matrix = s.matrix.commit (changedCells n old new) := rfl
@[simp] theorem State.setMatrixN_seq : (s.setMatrixN n old new).seq = s.seq := rfl
@[simp] theorem State.setMatrixN_inputs : (s.setMatrixN n old new).inputs = s.inputs := rfl
@[simp] theorem State.setMatrixN_reply : (s.setMatrixN n old new).reply = s.reply := rfl
@[simp] theorem State.setMatrixN_draws : (s.setMatrixN n old new).draws = s.draws := rfl
@[simp] theorem State.setMatrixN_epoch : (s.setMatrixN n old new).epoch = s.epoch := rfl
@[simp] theorem State.setMatrixN_params : (s.setMatrixN n old new).params = s.params := rfl

end

section
variable (s : State) (n : Nat)

@[simp] theorem State.setGenerator_ie : (s.setGenerator n).ie = s.ie := rfl
@[simp] theorem State.setGenerator_done : (s.setGenerator n).done = s.done := rfl
@[simp] theorem State.setGenerator_dcwValid : (s.setGenerator n).dcwValid = s.dcwValid := rfl
@[simp] theorem State.setGenerator_streamValid : (s.setGenerator n).streamValid = s.streamValid := rfl
@[simp] theorem State.setGenerator_dropped : (s.setGenerator n).dropped = s.dropped := rfl
@[simp] theorem State.setGenerator_maskValid : (s.setGenerator n).maskValid = s.maskValid := rfl
@[simp] theorem State.setGenerator_fault : (s.setGenerator n).fault = s.fault := rfl
@[simp] theorem State.setGenerator_level : (s.setGenerator n).level = s.level := rfl
@[simp] theorem State.setGenerator_mode : (s.setGenerator n).mode = s.mode := rfl
@[simp] theorem State.setGenerator_version : (s.setGenerator n).version = s.version := rfl
@[simp] theorem State.setGenerator_msgLen : (s.setGenerator n).msgLen = s.msgLen := rfl
@[simp] theorem State.setGenerator_rsK : (s.setGenerator n).rsK = s.rsK := rfl
@[simp] theorem State.setGenerator_dbits : (s.setGenerator n).dbits = s.dbits := rfl
@[simp] theorem State.setGenerator_dcwCount : (s.setGenerator n).dcwCount = s.dcwCount := rfl
@[simp] theorem State.setGenerator_streamBits : (s.setGenerator n).streamBits = s.streamBits := rfl
@[simp] theorem State.setGenerator_maskSel : (s.setGenerator n).maskSel = s.maskSel := rfl
@[simp] theorem State.setGenerator_pen1 : (s.setGenerator n).pen1 = s.pen1 := rfl
@[simp] theorem State.setGenerator_pen2 : (s.setGenerator n).pen2 = s.pen2 := rfl
@[simp] theorem State.setGenerator_pen3 : (s.setGenerator n).pen3 = s.pen3 := rfl
@[simp] theorem State.setGenerator_pen4 : (s.setGenerator n).pen4 = s.pen4 := rfl
@[simp] theorem State.setGenerator_penTotal : (s.setGenerator n).penTotal = s.penTotal := rfl
@[simp] theorem State.setGenerator_genDeg : (s.setGenerator n).genDeg = BitVec.ofNat 5 n := rfl
@[simp] theorem State.setGenerator_penMask : (s.setGenerator n).penMask = s.penMask := rfl
@[simp] theorem State.setGenerator_gen : (s.setGenerator n).gen = genFile (genpoly n) := rfl
@[simp] theorem State.setGenerator_msg : (s.setGenerator n).msg = s.msg := rfl
@[simp] theorem State.setGenerator_dcw : (s.setGenerator n).dcw = s.dcw := rfl
@[simp] theorem State.setGenerator_stream : (s.setGenerator n).stream = s.stream := rfl
@[simp] theorem State.setGenerator_rsbuf : (s.setGenerator n).rsbuf = s.rsbuf := rfl
@[simp] theorem State.setGenerator_rsec : (s.setGenerator n).rsec = s.rsec := rfl
@[simp] theorem State.setGenerator_matrix : (s.setGenerator n).matrix = s.matrix := rfl
@[simp] theorem State.setGenerator_seq : (s.setGenerator n).seq = s.seq := rfl
@[simp] theorem State.setGenerator_inputs : (s.setGenerator n).inputs = s.inputs := rfl
@[simp] theorem State.setGenerator_reply : (s.setGenerator n).reply = s.reply := rfl
@[simp] theorem State.setGenerator_draws : (s.setGenerator n).draws = s.draws := rfl
@[simp] theorem State.setGenerator_epoch : (s.setGenerator n).epoch = s.epoch := rfl
@[simp] theorem State.setGenerator_params : (s.setGenerator n).params = s.params := rfl

end

section
variable (s : State) (x : Score)

@[simp] theorem State.setPenalties_ie : (s.setPenalties x).ie = s.ie := rfl
@[simp] theorem State.setPenalties_done : (s.setPenalties x).done = s.done := rfl
@[simp] theorem State.setPenalties_dcwValid : (s.setPenalties x).dcwValid = s.dcwValid := rfl
@[simp] theorem State.setPenalties_streamValid : (s.setPenalties x).streamValid = s.streamValid := rfl
@[simp] theorem State.setPenalties_dropped : (s.setPenalties x).dropped = s.dropped := rfl
@[simp] theorem State.setPenalties_maskValid : (s.setPenalties x).maskValid = s.maskValid := rfl
@[simp] theorem State.setPenalties_fault : (s.setPenalties x).fault = s.fault := rfl
@[simp] theorem State.setPenalties_level : (s.setPenalties x).level = s.level := rfl
@[simp] theorem State.setPenalties_mode : (s.setPenalties x).mode = s.mode := rfl
@[simp] theorem State.setPenalties_version : (s.setPenalties x).version = s.version := rfl
@[simp] theorem State.setPenalties_msgLen : (s.setPenalties x).msgLen = s.msgLen := rfl
@[simp] theorem State.setPenalties_rsK : (s.setPenalties x).rsK = s.rsK := rfl
@[simp] theorem State.setPenalties_dbits : (s.setPenalties x).dbits = s.dbits := rfl
@[simp] theorem State.setPenalties_dcwCount : (s.setPenalties x).dcwCount = s.dcwCount := rfl
@[simp] theorem State.setPenalties_streamBits : (s.setPenalties x).streamBits = s.streamBits := rfl
@[simp] theorem State.setPenalties_maskSel : (s.setPenalties x).maskSel = s.maskSel := rfl
@[simp] theorem State.setPenalties_pen1 : (s.setPenalties x).pen1 = BitVec.ofNat 32 x.p1 := rfl
@[simp] theorem State.setPenalties_pen2 : (s.setPenalties x).pen2 = BitVec.ofNat 32 x.p2 := rfl
@[simp] theorem State.setPenalties_pen3 : (s.setPenalties x).pen3 = BitVec.ofNat 32 x.p3 := rfl
@[simp] theorem State.setPenalties_pen4 : (s.setPenalties x).pen4 = BitVec.ofNat 32 x.p4 := rfl
@[simp] theorem State.setPenalties_penTotal : (s.setPenalties x).penTotal = BitVec.ofNat 32 x.total := rfl
@[simp] theorem State.setPenalties_genDeg : (s.setPenalties x).genDeg = s.genDeg := rfl
@[simp] theorem State.setPenalties_penMask : (s.setPenalties x).penMask = s.penMask := rfl
@[simp] theorem State.setPenalties_gen : (s.setPenalties x).gen = s.gen := rfl
@[simp] theorem State.setPenalties_msg : (s.setPenalties x).msg = s.msg := rfl
@[simp] theorem State.setPenalties_dcw : (s.setPenalties x).dcw = s.dcw := rfl
@[simp] theorem State.setPenalties_stream : (s.setPenalties x).stream = s.stream := rfl
@[simp] theorem State.setPenalties_rsbuf : (s.setPenalties x).rsbuf = s.rsbuf := rfl
@[simp] theorem State.setPenalties_rsec : (s.setPenalties x).rsec = s.rsec := rfl
@[simp] theorem State.setPenalties_matrix : (s.setPenalties x).matrix = s.matrix := rfl
@[simp] theorem State.setPenalties_seq : (s.setPenalties x).seq = s.seq := rfl
@[simp] theorem State.setPenalties_inputs : (s.setPenalties x).inputs = s.inputs := rfl
@[simp] theorem State.setPenalties_reply : (s.setPenalties x).reply = s.reply := rfl
@[simp] theorem State.setPenalties_draws : (s.setPenalties x).draws = s.draws := rfl
@[simp] theorem State.setPenalties_epoch : (s.setPenalties x).epoch = s.epoch := rfl
@[simp] theorem State.setPenalties_params : (s.setPenalties x).params = s.params := rfl

end

section
variable (s : State) (ts : List Nat)

@[simp] theorem State.setMaskTotals_ie : (s.setMaskTotals ts).ie = s.ie := rfl
@[simp] theorem State.setMaskTotals_done : (s.setMaskTotals ts).done = s.done := rfl
@[simp] theorem State.setMaskTotals_dcwValid : (s.setMaskTotals ts).dcwValid = s.dcwValid := rfl
@[simp] theorem State.setMaskTotals_streamValid : (s.setMaskTotals ts).streamValid = s.streamValid := rfl
@[simp] theorem State.setMaskTotals_dropped : (s.setMaskTotals ts).dropped = s.dropped := rfl
@[simp] theorem State.setMaskTotals_maskValid : (s.setMaskTotals ts).maskValid = s.maskValid := rfl
@[simp] theorem State.setMaskTotals_fault : (s.setMaskTotals ts).fault = s.fault := rfl
@[simp] theorem State.setMaskTotals_level : (s.setMaskTotals ts).level = s.level := rfl
@[simp] theorem State.setMaskTotals_mode : (s.setMaskTotals ts).mode = s.mode := rfl
@[simp] theorem State.setMaskTotals_version : (s.setMaskTotals ts).version = s.version := rfl
@[simp] theorem State.setMaskTotals_msgLen : (s.setMaskTotals ts).msgLen = s.msgLen := rfl
@[simp] theorem State.setMaskTotals_rsK : (s.setMaskTotals ts).rsK = s.rsK := rfl
@[simp] theorem State.setMaskTotals_dbits : (s.setMaskTotals ts).dbits = s.dbits := rfl
@[simp] theorem State.setMaskTotals_dcwCount : (s.setMaskTotals ts).dcwCount = s.dcwCount := rfl
@[simp] theorem State.setMaskTotals_streamBits : (s.setMaskTotals ts).streamBits = s.streamBits := rfl
@[simp] theorem State.setMaskTotals_maskSel : (s.setMaskTotals ts).maskSel = s.maskSel := rfl
@[simp] theorem State.setMaskTotals_pen1 : (s.setMaskTotals ts).pen1 = s.pen1 := rfl
@[simp] theorem State.setMaskTotals_pen2 : (s.setMaskTotals ts).pen2 = s.pen2 := rfl
@[simp] theorem State.setMaskTotals_pen3 : (s.setMaskTotals ts).pen3 = s.pen3 := rfl
@[simp] theorem State.setMaskTotals_pen4 : (s.setMaskTotals ts).pen4 = s.pen4 := rfl
@[simp] theorem State.setMaskTotals_penTotal : (s.setMaskTotals ts).penTotal = s.penTotal := rfl
@[simp] theorem State.setMaskTotals_genDeg : (s.setMaskTotals ts).genDeg = s.genDeg := rfl
@[simp] theorem State.setMaskTotals_penMask : (s.setMaskTotals ts).penMask = Vector.ofFn fun m => BitVec.ofNat 32 (ts.getD m.val 0) := rfl
@[simp] theorem State.setMaskTotals_gen : (s.setMaskTotals ts).gen = s.gen := rfl
@[simp] theorem State.setMaskTotals_msg : (s.setMaskTotals ts).msg = s.msg := rfl
@[simp] theorem State.setMaskTotals_dcw : (s.setMaskTotals ts).dcw = s.dcw := rfl
@[simp] theorem State.setMaskTotals_stream : (s.setMaskTotals ts).stream = s.stream := rfl
@[simp] theorem State.setMaskTotals_rsbuf : (s.setMaskTotals ts).rsbuf = s.rsbuf := rfl
@[simp] theorem State.setMaskTotals_rsec : (s.setMaskTotals ts).rsec = s.rsec := rfl
@[simp] theorem State.setMaskTotals_matrix : (s.setMaskTotals ts).matrix = s.matrix := rfl
@[simp] theorem State.setMaskTotals_seq : (s.setMaskTotals ts).seq = s.seq := rfl
@[simp] theorem State.setMaskTotals_inputs : (s.setMaskTotals ts).inputs = s.inputs := rfl
@[simp] theorem State.setMaskTotals_reply : (s.setMaskTotals ts).reply = s.reply := rfl
@[simp] theorem State.setMaskTotals_draws : (s.setMaskTotals ts).draws = s.draws := rfl
@[simp] theorem State.setMaskTotals_epoch : (s.setMaskTotals ts).epoch = s.epoch := rfl
@[simp] theorem State.setMaskTotals_params : (s.setMaskTotals ts).params = s.params := rfl

end

section
variable (s : State) (d : Word)

@[simp] theorem State.replyOk_ie : (s.replyOk d).ie = s.ie := rfl
@[simp] theorem State.replyOk_done : (s.replyOk d).done = s.done := rfl
@[simp] theorem State.replyOk_dcwValid : (s.replyOk d).dcwValid = s.dcwValid := rfl
@[simp] theorem State.replyOk_streamValid : (s.replyOk d).streamValid = s.streamValid := rfl
@[simp] theorem State.replyOk_dropped : (s.replyOk d).dropped = s.dropped := rfl
@[simp] theorem State.replyOk_maskValid : (s.replyOk d).maskValid = s.maskValid := rfl
@[simp] theorem State.replyOk_fault : (s.replyOk d).fault = s.fault := rfl
@[simp] theorem State.replyOk_level : (s.replyOk d).level = s.level := rfl
@[simp] theorem State.replyOk_mode : (s.replyOk d).mode = s.mode := rfl
@[simp] theorem State.replyOk_version : (s.replyOk d).version = s.version := rfl
@[simp] theorem State.replyOk_msgLen : (s.replyOk d).msgLen = s.msgLen := rfl
@[simp] theorem State.replyOk_rsK : (s.replyOk d).rsK = s.rsK := rfl
@[simp] theorem State.replyOk_dbits : (s.replyOk d).dbits = s.dbits := rfl
@[simp] theorem State.replyOk_dcwCount : (s.replyOk d).dcwCount = s.dcwCount := rfl
@[simp] theorem State.replyOk_streamBits : (s.replyOk d).streamBits = s.streamBits := rfl
@[simp] theorem State.replyOk_maskSel : (s.replyOk d).maskSel = s.maskSel := rfl
@[simp] theorem State.replyOk_pen1 : (s.replyOk d).pen1 = s.pen1 := rfl
@[simp] theorem State.replyOk_pen2 : (s.replyOk d).pen2 = s.pen2 := rfl
@[simp] theorem State.replyOk_pen3 : (s.replyOk d).pen3 = s.pen3 := rfl
@[simp] theorem State.replyOk_pen4 : (s.replyOk d).pen4 = s.pen4 := rfl
@[simp] theorem State.replyOk_penTotal : (s.replyOk d).penTotal = s.penTotal := rfl
@[simp] theorem State.replyOk_genDeg : (s.replyOk d).genDeg = s.genDeg := rfl
@[simp] theorem State.replyOk_penMask : (s.replyOk d).penMask = s.penMask := rfl
@[simp] theorem State.replyOk_gen : (s.replyOk d).gen = s.gen := rfl
@[simp] theorem State.replyOk_msg : (s.replyOk d).msg = s.msg := rfl
@[simp] theorem State.replyOk_dcw : (s.replyOk d).dcw = s.dcw := rfl
@[simp] theorem State.replyOk_stream : (s.replyOk d).stream = s.stream := rfl
@[simp] theorem State.replyOk_rsbuf : (s.replyOk d).rsbuf = s.rsbuf := rfl
@[simp] theorem State.replyOk_rsec : (s.replyOk d).rsec = s.rsec := rfl
@[simp] theorem State.replyOk_matrix : (s.replyOk d).matrix = s.matrix := rfl
@[simp] theorem State.replyOk_seq : (s.replyOk d).seq = s.seq := rfl
@[simp] theorem State.replyOk_inputs : (s.replyOk d).inputs = s.inputs := rfl
@[simp] theorem State.replyOk_reply : (s.replyOk d).reply = ⟨false, d⟩ := rfl
@[simp] theorem State.replyOk_draws : (s.replyOk d).draws = s.draws := rfl
@[simp] theorem State.replyOk_epoch : (s.replyOk d).epoch = s.epoch := rfl
@[simp] theorem State.replyOk_params : (s.replyOk d).params = s.params := rfl

end

section
variable (s : State)

@[simp] theorem State.replyBusError_ie : (s.replyBusError).ie = s.ie := rfl
@[simp] theorem State.replyBusError_done : (s.replyBusError).done = s.done := rfl
@[simp] theorem State.replyBusError_dcwValid : (s.replyBusError).dcwValid = s.dcwValid := rfl
@[simp] theorem State.replyBusError_streamValid : (s.replyBusError).streamValid = s.streamValid := rfl
@[simp] theorem State.replyBusError_dropped : (s.replyBusError).dropped = s.dropped := rfl
@[simp] theorem State.replyBusError_maskValid : (s.replyBusError).maskValid = s.maskValid := rfl
@[simp] theorem State.replyBusError_fault : (s.replyBusError).fault = s.fault := rfl
@[simp] theorem State.replyBusError_level : (s.replyBusError).level = s.level := rfl
@[simp] theorem State.replyBusError_mode : (s.replyBusError).mode = s.mode := rfl
@[simp] theorem State.replyBusError_version : (s.replyBusError).version = s.version := rfl
@[simp] theorem State.replyBusError_msgLen : (s.replyBusError).msgLen = s.msgLen := rfl
@[simp] theorem State.replyBusError_rsK : (s.replyBusError).rsK = s.rsK := rfl
@[simp] theorem State.replyBusError_dbits : (s.replyBusError).dbits = s.dbits := rfl
@[simp] theorem State.replyBusError_dcwCount : (s.replyBusError).dcwCount = s.dcwCount := rfl
@[simp] theorem State.replyBusError_streamBits : (s.replyBusError).streamBits = s.streamBits := rfl
@[simp] theorem State.replyBusError_maskSel : (s.replyBusError).maskSel = s.maskSel := rfl
@[simp] theorem State.replyBusError_pen1 : (s.replyBusError).pen1 = s.pen1 := rfl
@[simp] theorem State.replyBusError_pen2 : (s.replyBusError).pen2 = s.pen2 := rfl
@[simp] theorem State.replyBusError_pen3 : (s.replyBusError).pen3 = s.pen3 := rfl
@[simp] theorem State.replyBusError_pen4 : (s.replyBusError).pen4 = s.pen4 := rfl
@[simp] theorem State.replyBusError_penTotal : (s.replyBusError).penTotal = s.penTotal := rfl
@[simp] theorem State.replyBusError_genDeg : (s.replyBusError).genDeg = s.genDeg := rfl
@[simp] theorem State.replyBusError_penMask : (s.replyBusError).penMask = s.penMask := rfl
@[simp] theorem State.replyBusError_gen : (s.replyBusError).gen = s.gen := rfl
@[simp] theorem State.replyBusError_msg : (s.replyBusError).msg = s.msg := rfl
@[simp] theorem State.replyBusError_dcw : (s.replyBusError).dcw = s.dcw := rfl
@[simp] theorem State.replyBusError_stream : (s.replyBusError).stream = s.stream := rfl
@[simp] theorem State.replyBusError_rsbuf : (s.replyBusError).rsbuf = s.rsbuf := rfl
@[simp] theorem State.replyBusError_rsec : (s.replyBusError).rsec = s.rsec := rfl
@[simp] theorem State.replyBusError_matrix : (s.replyBusError).matrix = s.matrix := rfl
@[simp] theorem State.replyBusError_seq : (s.replyBusError).seq = s.seq := rfl
@[simp] theorem State.replyBusError_inputs : (s.replyBusError).inputs = s.inputs := rfl
@[simp] theorem State.replyBusError_reply : (s.replyBusError).reply = ⟨true, 0⟩ := rfl
@[simp] theorem State.replyBusError_draws : (s.replyBusError).draws = s.draws := rfl
@[simp] theorem State.replyBusError_epoch : (s.replyBusError).epoch = s.epoch := rfl
@[simp] theorem State.replyBusError_params : (s.replyBusError).params = s.params := rfl

end

section
variable (s : State) (free : Word)

@[simp] theorem State.replyDraw_ie : (s.replyDraw free).ie = s.ie := rfl
@[simp] theorem State.replyDraw_done : (s.replyDraw free).done = s.done := rfl
@[simp] theorem State.replyDraw_dcwValid : (s.replyDraw free).dcwValid = s.dcwValid := rfl
@[simp] theorem State.replyDraw_streamValid : (s.replyDraw free).streamValid = s.streamValid := rfl
@[simp] theorem State.replyDraw_dropped : (s.replyDraw free).dropped = s.dropped := rfl
@[simp] theorem State.replyDraw_maskValid : (s.replyDraw free).maskValid = s.maskValid := rfl
@[simp] theorem State.replyDraw_fault : (s.replyDraw free).fault = s.fault := rfl
@[simp] theorem State.replyDraw_level : (s.replyDraw free).level = s.level := rfl
@[simp] theorem State.replyDraw_mode : (s.replyDraw free).mode = s.mode := rfl
@[simp] theorem State.replyDraw_version : (s.replyDraw free).version = s.version := rfl
@[simp] theorem State.replyDraw_msgLen : (s.replyDraw free).msgLen = s.msgLen := rfl
@[simp] theorem State.replyDraw_rsK : (s.replyDraw free).rsK = s.rsK := rfl
@[simp] theorem State.replyDraw_dbits : (s.replyDraw free).dbits = s.dbits := rfl
@[simp] theorem State.replyDraw_dcwCount : (s.replyDraw free).dcwCount = s.dcwCount := rfl
@[simp] theorem State.replyDraw_streamBits : (s.replyDraw free).streamBits = s.streamBits := rfl
@[simp] theorem State.replyDraw_maskSel : (s.replyDraw free).maskSel = s.maskSel := rfl
@[simp] theorem State.replyDraw_pen1 : (s.replyDraw free).pen1 = s.pen1 := rfl
@[simp] theorem State.replyDraw_pen2 : (s.replyDraw free).pen2 = s.pen2 := rfl
@[simp] theorem State.replyDraw_pen3 : (s.replyDraw free).pen3 = s.pen3 := rfl
@[simp] theorem State.replyDraw_pen4 : (s.replyDraw free).pen4 = s.pen4 := rfl
@[simp] theorem State.replyDraw_penTotal : (s.replyDraw free).penTotal = s.penTotal := rfl
@[simp] theorem State.replyDraw_genDeg : (s.replyDraw free).genDeg = s.genDeg := rfl
@[simp] theorem State.replyDraw_penMask : (s.replyDraw free).penMask = s.penMask := rfl
@[simp] theorem State.replyDraw_gen : (s.replyDraw free).gen = s.gen := rfl
@[simp] theorem State.replyDraw_msg : (s.replyDraw free).msg = s.msg := rfl
@[simp] theorem State.replyDraw_dcw : (s.replyDraw free).dcw = s.dcw := rfl
@[simp] theorem State.replyDraw_stream : (s.replyDraw free).stream = s.stream := rfl
@[simp] theorem State.replyDraw_rsbuf : (s.replyDraw free).rsbuf = s.rsbuf := rfl
@[simp] theorem State.replyDraw_rsec : (s.replyDraw free).rsec = s.rsec := rfl
@[simp] theorem State.replyDraw_matrix : (s.replyDraw free).matrix = s.matrix := rfl
@[simp] theorem State.replyDraw_seq : (s.replyDraw free).seq = s.seq := rfl
@[simp] theorem State.replyDraw_inputs : (s.replyDraw free).inputs = s.inputs := rfl
@[simp] theorem State.replyDraw_reply : (s.replyDraw free).reply = ⟨false, busyReadDraw s.draws &&& free⟩ := rfl
@[simp] theorem State.replyDraw_draws : (s.replyDraw free).draws = s.draws + 1 := rfl
@[simp] theorem State.replyDraw_epoch : (s.replyDraw free).epoch = s.epoch := rfl
@[simp] theorem State.replyDraw_params : (s.replyDraw free).params = s.params := rfl

end

end Sys2Proof.Machine
end

