-- ==== Sys2Proof/Laws/Ops.lean ====
section
/-! SUPPORT. For each shared operation, what it can do, said once: the two ends of a command, the opening checks, the matrix
reads and writes, and a buffer's elements after a commit. -/

namespace Sys2Proof.Machine

open Sys2Proof.Config

/-! ### The two ends of a command -/

@[simp] theorem State.finish_ok (s t : State) (op : Byte) : s.finish op (.ok t) = .next t.complete := rfl

@[simp] theorem State.finish_error (s : State) (op : Byte) (r : Raised) : s.finish op (.error r) = .next (s.raise op r) := rfl

/-- A command other than RUN ends in exactly one of two ways (rule R260). -/
theorem State.finish_cases {s t : State} {op : Byte} {e : Effect} (h : s.finish op e = .next t) :
    (∃ u, e = .ok u ∧ t = u.complete) ∨ (∃ r, e = .error r ∧ t = s.raise op r) := by
  cases e with
  | ok u => exact .inl ⟨u, rfl, by simpa using h.symm⟩
  | error r => exact .inr ⟨r, rfl, by simpa using h.symm⟩

/-- A command other than RUN always ends. -/
theorem State.finish_total (s : State) (op : Byte) (e : Effect) : ∃ t, s.finish op e = .next t := by
  cases e <;> exact ⟨_, rfl⟩

/-! ### The opening checks -/

theorem versionLegal_iff (v : Nat) : versionLegal v = true ↔ 1 ≤ v ∧ v ≤ 40 := by simp [versionLegal]

theorem State.withVersion_legal {s : State} (k : Nat → Effect) (h : 1 ≤ s.versionNat ∧ s.versionNat ≤ 40) :
    s.withVersion k = k s.versionNat := by
  rw [State.withVersion, if_pos ((versionLegal_iff _).2 h)]

theorem State.withVersion_illegal {s : State} (k : Nat → Effect) (h : ¬(1 ≤ s.versionNat ∧ s.versionNat ≤ 40)) :
    s.withVersion k = .error ⟨.config, 1⟩ := by
  rw [State.withVersion, if_neg (by simpa [versionLegal_iff] using h)]

theorem State.withVersion_ok {s t : State} {k : Nat → Effect} (h : s.withVersion k = .ok t) :
    (1 ≤ s.versionNat ∧ s.versionNat ≤ 40) ∧ k s.versionNat = .ok t := by
  by_cases hv : 1 ≤ s.versionNat ∧ s.versionNat ≤ 40
  · exact ⟨hv, by rwa [State.withVersion_legal k hv] at h⟩
  · rw [State.withVersion_illegal k hv] at h; cases h

/-! ### The cells of N × N -/

theorem mem_cellsOf {n r c : Nat} : (r, c) ∈ cellsOf n ↔ r < n ∧ c < n := by
  simp [cellsOf]

/-- Evaluating the rows first does not change the matrix. -/
@[simp] theorem withRows_rowsOf (n : Nat) (m : Matrix) : withRows (rowsOf n m) m = m := by
  funext r c
  simp only [withRows, rowsOf, List.getElem?_map]
  by_cases hr : r < n
  · rw [List.getElem?_range hr]
    simp only [Option.map_some, List.getElem?_map]
    by_cases hc : c < n
    · rw [List.getElem?_range hc]; rfl
    · rw [List.getElem?_eq_none (by simpa using hc)]; rfl
  · rw [List.getElem?_eq_none (by simpa using hr)]; rfl

@[simp] theorem State.withMatrix_eq (s : State) (n : Nat) (k : Matrix → Effect) : s.withMatrix n k = k s.cell := by
  simp [State.withMatrix]

/-- Every cell of N × N can be scored: not Empty, 6 or 7 (rule R220). -/
theorem withColours_scorable {n : Nat} {m : Matrix} (k : Effect)
    (h : ∀ r c, r < n → c < n → m r c ≠ 0 ∧ m r c ≠ 6 ∧ m r c ≠ 7) : withColours n m k = k := by
  have : (cellsOf n).find? (fun p => m p.1 p.2 == 0 || m p.1 p.2 == 6 || m p.1 p.2 == 7) = none := by
    rw [List.find?_eq_none]
    rintro ⟨r, c⟩ hp
    have hp := mem_cellsOf.1 hp
    simpa [and_assoc] using h r c hp.1 hp.2
  rw [withColours, this]

theorem withColours_ok {n : Nat} {m : Matrix} {k : Effect} {t : State} (h : withColours n m k = .ok t) :
    (∀ r c, r < n → c < n → m r c ≠ 0 ∧ m r c ≠ 6 ∧ m r c ≠ 7) ∧ k = .ok t := by
  rw [withColours] at h
  split at h
  · cases h
  · next hf =>
    refine ⟨fun r c hr hc => ?_, h⟩
    have := List.find?_eq_none.1 hf (r, c) (mem_cellsOf.2 ⟨hr, hc⟩)
    simpa [not_or, and_assoc] using this

/-! ### Indexes of cells -/

theorem cellIndex_lt {r c : Nat} (hr : r < nMax) (hc : c < nMax) : cellIndex r c < nMax * nMax := by
  simp only [cellIndex, nMax] at *
  omega

theorem cellIndex_inj {r c r' c' : Nat} (hc : c < nMax) (hc' : c' < nMax) :
    cellIndex r c = cellIndex r' c' ↔ r = r' ∧ c = c' := by
  simp only [cellIndex, nMax] at *
  omega

theorem cellIndex_div {r c : Nat} (hc : c < nMax) : cellIndex r c / nMax = r := by
  simp only [cellIndex, nMax] at *
  omega

theorem cellIndex_mod {r c : Nat} (hc : c < nMax) : cellIndex r c % nMax = c := by
  simp only [cellIndex, nMax] at *
  omega

/-! ### Writing MATRIX -/

theorem find_map_range' {w : Nat} (f : Nat → BitVec w) (n s i : Nat) :
    Memory.find ((List.range' s n).map fun k => (k, f k)) i = if s ≤ i ∧ i < s + n then some (f i) else none := by
  induction n generalizing s with
  | zero => rw [if_neg (by omega)]; rfl
  | succ n ih =>
    rw [List.range'_succ, List.map_cons, Memory.find_cons, ih]
    rcases Nat.lt_trichotomy s i with h | h | h
    · rw [if_neg (by omega)]
      by_cases h' : i < s + (n + 1)
      · rw [if_pos (by omega), if_pos (by omega)]
      · rw [if_neg (by omega), if_neg (by omega)]
    · subst h; rw [if_pos rfl, if_pos (by omega)]
    · rw [if_neg (by omega), if_neg (by omega), if_neg (by omega)]

theorem find_wholeMatrix (w : Matrix) (i : Nat) :
    (wholeMatrix w).find i = if i < nMax * nMax then some (w (i / nMax) (i % nMax)) else none := by
  rw [wholeMatrix, find_map_range' (fun i => w (i / nMax) (i % nMax))]
  simp

theorem wholeMatrix_wf (w : Matrix) : (wholeMatrix w).wf (nMax * nMax) := by
  refine ⟨?_, ?_⟩
  · rw [wholeMatrix, List.pairwise_map]
    exact List.pairwise_lt_range'
  · intro x hx
    obtain ⟨i, hi, rfl⟩ := List.mem_map.1 hx
    have := List.mem_range'_1.1 hi
    simp only
    omega

/-- After `MATRIX ← W` every cell of the 177 × 177 array is that of W. -/
theorem State.setWholeMatrix_cell (s : State) (w : Matrix) {r c : Nat} (hr : r < nMax) (hc : c < nMax) :
    (s.setWholeMatrix w).cell r c = w r c := by
  rw [State.cell, State.matrixCell, State.setWholeMatrix_matrix, find_wholeMatrix,
    if_pos (cellIndex_lt hr hc), cellIndex_div hc, cellIndex_mod hc]
  rfl

theorem mem_changedCells {n : Nat} {old new : Matrix} {x : Nat × CellCode} (hx : x ∈ changedCells n old new) :
    ∃ r c, r < n ∧ c < n ∧ new r c ≠ old r c ∧ x = (cellIndex r c, new r c) := by
  simp only [changedCells, List.mem_filterMap] at hx
  obtain ⟨⟨r, c⟩, hp, hx⟩ := hx
  have hp := mem_cellsOf.1 hp
  split at hx
  · cases hx
  · next h => exact ⟨r, c, hp.1, hp.2, h, (Option.some.inj hx).symm⟩

theorem changedCells_lt {n : Nat} (hn : n ≤ nMax) {old new : Matrix} {x : Nat × CellCode}
    (hx : x ∈ changedCells n old new) : x.1 < nMax * nMax := by
  obtain ⟨r, c, hr, hc, -, rfl⟩ := mem_changedCells hx
  exact cellIndex_lt (by omega) (by omega)

/-- What the writes of `changedCells` leave at a cell: the new code where it differs, nothing elsewhere. -/
theorem find_changedCells {n : Nat} (hn : n ≤ nMax) (old new : Matrix) {r c : Nat} (hc : c < nMax) :
    Memory.find (changedCells n old new) (cellIndex r c) =
      if r < n ∧ c < n ∧ new r c ≠ old r c then some (new r c) else none := by
  have unique : ∀ x ∈ changedCells n old new, x.1 = cellIndex r c →
      r < n ∧ c < n ∧ new r c ≠ old r c ∧ x = (cellIndex r c, new r c) := fun x hx he => by
    obtain ⟨r', c', hr', hc', hne, rfl⟩ := mem_changedCells hx
    obtain ⟨rfl, rfl⟩ := (cellIndex_inj (by omega) hc).1 he
    exact ⟨hr', hc', hne, rfl⟩
  have key : ∀ l : List (Nat × CellCode), (∀ x ∈ l, x.1 = cellIndex r c → x = (cellIndex r c, new r c)) →
      Memory.find l (cellIndex r c) = if ∃ x ∈ l, x.1 = cellIndex r c then some (new r c) else none := by
    intro l
    induction l with
    | nil => simp
    | cons y l ih =>
      obtain ⟨j, v⟩ := y
      intro hl
      rw [Memory.find_cons]
      by_cases hj : j = cellIndex r c
      · have hy := hl (j, v) (by simp) hj
        have hv : v = new r c := congrArg Prod.snd hy
        rw [if_pos hj, if_pos ⟨(j, v), by simp, hj⟩, hv]
      · rw [if_neg hj, ih fun x hx => hl x (by simp [hx])]
        congr 1
        simp [hj]
  rw [key _ fun x hx he => (unique x hx he).2.2.2]
  congr 1
  refine propext ⟨fun ⟨x, hx, he⟩ => ?_, fun ⟨hr, hcn, hne⟩ => ?_⟩
  · have := unique x hx he
    exact ⟨this.1, this.2.1, this.2.2.1⟩
  · refine ⟨(cellIndex r c, new r c), ?_, rfl⟩
    simp only [changedCells, List.mem_filterMap]
    exact ⟨(r, c), mem_cellsOf.2 ⟨hr, hcn⟩, by simp [hne]⟩

/-- After `MATRIX ← new` on N × N, the cells of N × N are those of `new` and the others stand. -/
theorem State.setMatrixN_cell (s : State) {n : Nat} (hn : n ≤ nMax) (new : Matrix)
    (hs : s.matrix.Pairwise fun a b => a.1 < b.1) (r : Nat) {c : Nat} (hc : c < nMax) :
    (s.setMatrixN n s.cell new).cell r c = if r < n ∧ c < n then new r c else s.cell r c := by
  simp only [State.cell, State.matrixCell, State.setMatrixN_matrix, Memory.find_commit _ hs]
  rw [show changedCells n s.cell new = changedCells n s.cell new from rfl, find_changedCells hn s.cell new hc]
  by_cases h : r < n ∧ c < n
  · by_cases hne : new r c = s.cell r c
    · rw [if_neg (by simp [hne]), if_pos h, hne]; rfl
    · rw [if_pos ⟨h.1, h.2, hne⟩, if_pos h]; rfl
  · rw [if_neg (by tauto), if_neg h]; rfl

/-! ### Elements of a buffer -/

@[simp] theorem length_firstBytes (f : Nat → Byte) (n : Nat) : (firstBytes f n).length = n := by simp [firstBytes]

theorem getElem_firstBytes (f : Nat → Byte) {n i : Nat} (h : i < (firstBytes f n).length) : (firstBytes f n)[i] = f i := by
  simp [firstBytes]

theorem firstBytes_congr {f g : Nat → Byte} {n : Nat} (h : ∀ i, i < n → f i = g i) : firstBytes f n = firstBytes g n := by
  simpa [firstBytes] using h

/-- A buffer's element after a commit of consecutive elements from 0. -/
theorem getD_find_commit_writesFrom {m : Memory 8} (hm : m.Pairwise fun a b => a.1 < b.1) (vs : List Byte) (k : Nat)
    (d : Byte) : ((m.commit (writesFrom 0 vs)).find k).getD d = vs.getD k ((m.find k).getD d) := by
  rw [Memory.find_commit _ hm, Memory.find_writesFrom, if_pos (Nat.zero_le k), Nat.sub_zero, List.getD_eq_getElem?_getD]
  cases vs[k]? <;> rfl

theorem sideOf_le {v : Nat} (h : v ≤ 40) : sideOf v ≤ nMax := by
  simp only [sideOf, nMax]
  omega

end Sys2Proof.Machine
end

