-- ==== Sys2Proof/Laws/Effects.lean ====
section
/-! SUPPORT. For each command, what it can do, said once: when it completes (exactly when its `…Ready` conditions hold) and
with which commit, that a fault always carries a code, and that a commit leaves FAULT, DONE, `seq` and the model's own fields
alone. -/

namespace Sys2Proof.Machine

open Sys2Proof.Config

/-! ### PACK -/

/-- What PACK computes when no check fails (rule R130). -/
def packedOf (s : State) (mode : PackMode) : Packed :=
  let d := planData (configuredPlan s)
  ⟨bytesOfBits d (padTo (terminate (packString s mode) (8 * d)) (8 * d)), (packString s mode).length⟩

theorem findIdx?_firstBytes_eq_none {f : Nat → Byte} {n : Nat} {p : Byte → Bool} :
    (firstBytes f n).findIdx? p = none ↔ ∀ i, i < n → p (f i) = false := by
  simp [List.findIdx?_eq_none_iff, firstBytes]

theorem packCompute_iff {s : State} {p : Packed} (hv : 1 ≤ s.versionNat ∧ s.versionNat ≤ 40) :
    packCompute s s.versionNat = .ok p ↔ ∃ mode, PackReady s mode ∧ p = packedOf s mode := by
  constructor
  · intro h
    rw [packCompute] at h
    split at h
    · cases h
    · next mode hm =>
      split at h
      · cases h
      · next hl =>
        split at h
        · cases h
        · next hc =>
          rw [findIdx?_firstBytes_eq_none] at hc
          split at h
          · cases h
          · next hp =>
            split at h
            · cases h
            · next hw =>
              dsimp only at h
              split at h
              · cases h
              · next hcap =>
                refine ⟨mode, ⟨hv, hm, by simpa [msgCap] using hl, fun i hi => by simpa using hc i hi,
                  by simpa [configuredPlan] using hp, by omega, ?_⟩, ?_⟩
                · simpa [packString, configuredPlan] using hcap
                · exact (Except.ok.inj h).symm
  · rintro ⟨mode, h, rfl⟩
    have hc := findIdx?_firstBytes_eq_none (f := s.msgByte) (n := s.msgLen.toNat)
      (p := fun b => !charLegal s.params.refdata mode b) |>.2 fun i hi => by simp [h.charset i hi]
    have hl := h.length
    have hw := h.countFits
    have hcap := h.capacity
    rw [packCompute, h.modePacked]
    dsimp only
    rw [if_neg (show ¬msgCap < _ by simp only [msgCap]; omega), hc]
    dsimp only
    rw [if_neg (by simpa [configuredPlan] using h.plan), if_neg (by omega),
      if_neg (by simpa [packString, configuredPlan] using hcap)]
    rfl

/-- PACK completes exactly when no check fails. -/
theorem packEffect_ok_iff {s t : State} : packEffect s = .ok t ↔ ∃ mode, PackReady s mode ∧ t = packCommit s (packedOf s mode) := by
  constructor
  · intro h
    obtain ⟨hv, h⟩ := State.withVersion_ok h
    split at h
    · cases h
    · next p hp =>
      obtain ⟨mode, hr, rfl⟩ := (packCompute_iff hv).1 hp
      exact ⟨mode, hr, (Except.ok.inj h).symm⟩
  · rintro ⟨mode, hr, rfl⟩
    rw [packEffect, State.withVersion_legal _ hr.version, (packCompute_iff hr.version).2 ⟨mode, hr, rfl⟩]

/-! ### GENPOLY and RSENC -/

theorem ecCountLegal_iff (n : Byte) : ecCountLegal n = true ↔ 1 ≤ n.toNat ∧ n.toNat ≤ 30 :=
  decide_eq_true_iff

theorem genpolyEffect_ok_iff {s t : State} {n : Byte} :
    genpolyEffect n s = .ok t ↔ (1 ≤ n.toNat ∧ n.toNat ≤ 30) ∧ t = s.setGenerator n.toNat := by
  rw [genpolyEffect, ← ecCountLegal_iff]
  split
  · next h => exact Iff.intro (fun e => ⟨h, (Except.ok.inj e).symm⟩) (fun e => by rw [e.2])
  · next h => exact Iff.intro (fun e => by injection e) (fun e => absurd e.1 h)

theorem rsencEffect_ok_iff {s t : State} {n : Byte} :
    rsencEffect n s = .ok t ↔ (1 ≤ n.toNat ∧ n.toNat ≤ 30) ∧ s.rsK.toNat + n.toNat ≤ 255 ∧
      t = State.setGenerator
        { s with
          rsec := s.rsec.commit (writesFrom 0 (rsencCodewords s n.toNat ++ List.replicate (rsecCap - n.toNat) 0)) }
        n.toNat := by
  rw [rsencEffect, ← ecCountLegal_iff]
  cases h : ecCountLegal n
  · simp
  · by_cases hk : 255 < s.rsK.toNat + n.toNat
    · simp [hk]
    · simp only [Bool.not_true, Bool.false_eq_true, if_false, if_neg hk, Except.ok.injEq, true_and]
      exact ⟨fun e => ⟨by omega, e.symm⟩, fun e => e.2.symm⟩

/-! ### INTERLEAVE -/

/-- What INTERLEAVE computes when no check fails (rule R180). -/
def interleavedOf (s : State) : Interleaved :=
  let p := configuredPlan s
  let rem := refRemainderBits s.params.refdata s.versionNat
  ⟨bytesOfBits (bytesFor (configuredStreamLength s))
      (bitsOfBytes (interleavedCodewords p (firstBytes s.dcwByte (planData p))) ++ zeroBits rem),
    configuredStreamLength s, p.ec⟩

theorem interleaveCompute_iff {s : State} {r : Interleaved} (hv : 1 ≤ s.versionNat ∧ s.versionNat ≤ 40) :
    interleaveCompute s s.versionNat = .ok r ↔ InterleaveReady s ∧ r = interleavedOf s := by
  constructor
  · intro h
    rw [interleaveCompute] at h
    split at h
    · cases h
    · next hd =>
      dsimp only at h
      split at h
      · cases h
      · next hp =>
        split at h
        · cases h
        · next hl =>
          refine ⟨⟨hv, by simpa using hd, by simpa [configuredPlan] using hp, ?_⟩, (Except.ok.inj h).symm⟩
          simpa [configuredStreamLength, configuredPlan, streamCap] using hl
  · rintro ⟨h, rfl⟩
    have hf := h.fits
    rw [interleaveCompute, h.valid]
    dsimp only
    rw [if_neg (by simp), if_neg (by simpa [configuredPlan] using h.plan),
      if_neg (by simpa [configuredStreamLength, configuredPlan, streamCap] using hf)]
    rfl

/-- INTERLEAVE completes exactly when no check fails. -/
theorem interleaveEffect_ok_iff {s t : State} :
    interleaveEffect s = .ok t ↔ InterleaveReady s ∧ t = interleaveCommit s (interleavedOf s) := by
  constructor
  · intro h
    obtain ⟨hv, h⟩ := State.withVersion_ok h
    split at h
    · cases h
    · next p hp =>
      obtain ⟨hr, rfl⟩ := (interleaveCompute_iff hv).1 hp
      exact ⟨hr, (Except.ok.inj h).symm⟩
  · rintro ⟨hr, rfl⟩
    rw [interleaveEffect, State.withVersion_legal _ hr.version, (interleaveCompute_iff hr.version).2 ⟨hr, rfl⟩]

/-! ### FUNCPAT and PLACE -/

theorem centreOk_iff (n : Nat) (p : Nat × Nat) :
    centreOk n p = true ↔ 2 ≤ p.1 ∧ 2 ≤ p.2 ∧ p.1 ≤ n - 3 ∧ p.2 ≤ n - 3 := by
  simp [centreOk, and_assoc]

/-- The matrix FUNCPAT builds for the configured version. -/
def configuredPatterns (s : State) : Matrix := functionPatterns s.versionNat (refAlignmentPairs s.params.refdata s.versionNat)

theorem funcpatEffect_ok_iff {s t : State} :
    funcpatEffect s = .ok t ↔ FuncpatReady s ∧ t = funcpatCommit s (configuredPatterns s) := by
  constructor
  · intro h
    obtain ⟨hv, h⟩ := State.withVersion_ok h
    split at h
    · cases h
    · next hc =>
      refine ⟨⟨hv, fun p hp => (centreOk_iff _ p).1 ?_⟩, (Except.ok.inj h).symm⟩
      have ha : (refAlignmentPairs s.params.refdata s.versionNat).all (centreOk (sideOf s.versionNat)) = true := by simpa using hc
      exact List.all_eq_true.1 ha p hp
  · rintro ⟨hr, rfl⟩
    rw [funcpatEffect, State.withVersion_legal _ hr.version, if_neg]
    · rfl
    · have : (refAlignmentPairs s.params.refdata s.versionNat).all (centreOk (sideOf s.versionNat)) = true :=
        List.all_eq_true.2 fun p hp => (centreOk_iff _ p).2 (hr.centres p hp)
      simp [this]

theorem placeEffect_ok_iff {s t : State} :
    placeEffect s = .ok t ↔ PlaceReady s ∧ t = placeCommit s (configuredSide s) s.cell := by
  constructor
  · intro h
    obtain ⟨hv, h⟩ := State.withVersion_ok h
    split at h
    · cases h
    · next hs =>
      rw [State.withMatrix_eq] at h
      split at h
      · cases h
      · next hc => exact ⟨⟨hv, by simpa using hs, by simpa [configuredSide] using hc⟩, (Except.ok.inj h).symm⟩
  · rintro ⟨hr, rfl⟩
    have hc := hr.count
    rw [placeEffect, State.withVersion_legal _ hr.version, hr.valid, State.withMatrix_eq]
    simp only [Bool.not_true, Bool.false_eq_true, if_false]
    rw [if_neg (by simpa [configuredSide] using hc)]
    rfl

/-! ### The mask engine -/

/-- The opening checks of the mask engine's commands. -/
theorem masked_ok_iff {s t : State} {k : Nat → Matrix → State} :
    (s.withVersion fun v => s.withMatrix (sideOf v) fun w => withColours (sideOf v) w (.ok (k (sideOf v) w))) = .ok t ↔
      MaskReady s ∧ t = k (configuredSide s) s.cell := by
  constructor
  · intro h
    obtain ⟨hv, h⟩ := State.withVersion_ok h
    rw [State.withMatrix_eq] at h
    obtain ⟨hc, h⟩ := withColours_ok h
    exact ⟨⟨hv, hc⟩, (Except.ok.inj h).symm⟩
  · rintro ⟨hr, rfl⟩
    rw [State.withVersion_legal _ hr.version, State.withMatrix_eq]
    exact withColours_scorable _ hr.colours

theorem penaltyArgLegal_iff (m : Byte) : penaltyArgLegal m = true ↔ m.toNat ≤ 7 ∨ m = 0xFF := by simp [penaltyArgLegal]

theorem maskIndexLegal_iff (m : Byte) : maskIndexLegal m = true ↔ m.toNat ≤ 7 := by simp [maskIndexLegal]

theorem penaltyEffect_ok_iff {s t : State} {m : Byte} :
    penaltyEffect m s = .ok t ↔ (m.toNat ≤ 7 ∨ m = 0xFF) ∧ MaskReady s ∧
      t = s.setPenalties (scoreOf s.params.p3Second (configuredSide s) (penaltyMatrix (configuredSide s) m s.cell)) := by
  rw [penaltyEffect, ← penaltyArgLegal_iff]
  cases h : penaltyArgLegal m
  · simp
  · simp only [Bool.not_true, Bool.false_eq_true, if_false, true_and]
    exact masked_ok_iff (k := fun n w => s.setPenalties (scoreOf s.params.p3Second n (penaltyMatrix n m w)))

theorem maskselEffect_ok_iff {s t : State} :
    maskselEffect s = .ok t ↔ MaskReady s ∧
      t = maskselCommit s (configuredSide s) s.cell (selectMask s.params.p3Second (configuredSide s) s.cell) :=
  masked_ok_iff (k := fun n w => maskselCommit s n w (selectMask s.params.p3Second n w))

theorem maskapplyEffect_ok_iff {s t : State} {m : Byte} :
    maskapplyEffect m s = .ok t ↔ m.toNat ≤ 7 ∧ MaskReady s ∧ t = s.maskMatrix (configuredSide s) m.toNat s.cell := by
  rw [maskapplyEffect, ← maskIndexLegal_iff]
  cases h : maskIndexLegal m
  · simp
  · simp only [Bool.not_true, Bool.false_eq_true, if_false, true_and]
    exact masked_ok_iff (k := fun n w => s.maskMatrix n m.toNat w)

/-! ### What no command's commit changes -/

/-- `t` has the fields of `s` that no commit writes (rules R260, R265). -/
structure SameControl (s t : State) : Prop where
  ie : t.ie = s.ie
  done : t.done = s.done
  fault : t.fault = s.fault
  seq : t.seq = s.seq
  level : t.level = s.level
  mode : t.mode = s.mode
  version : t.version = s.version
  msgLen : t.msgLen = s.msgLen
  rsK : t.rsK = s.rsK
  msg : t.msg = s.msg
  rsbuf : t.rsbuf = s.rsbuf
  inputs : t.inputs = s.inputs
  reply : t.reply = s.reply
  draws : t.draws = s.draws
  epoch : t.epoch = s.epoch
  params : t.params = s.params

theorem SameControl.refl (s : State) : SameControl s s := by constructor <;> rfl

theorem packEffect_control {s t : State} (h : packEffect s = .ok t) : SameControl s t := by
  obtain ⟨_, -, rfl⟩ := packEffect_ok_iff.1 h
  constructor <;> rfl

theorem genpolyEffect_control {s t : State} {n : Byte} (h : genpolyEffect n s = .ok t) : SameControl s t := by
  obtain ⟨-, rfl⟩ := genpolyEffect_ok_iff.1 h
  constructor <;> rfl

theorem rsencEffect_control {s t : State} {n : Byte} (h : rsencEffect n s = .ok t) : SameControl s t := by
  obtain ⟨-, -, rfl⟩ := rsencEffect_ok_iff.1 h
  constructor <;> rfl

theorem interleaveEffect_control {s t : State} (h : interleaveEffect s = .ok t) : SameControl s t := by
  obtain ⟨-, rfl⟩ := interleaveEffect_ok_iff.1 h
  constructor <;> rfl

theorem funcpatEffect_control {s t : State} (h : funcpatEffect s = .ok t) : SameControl s t := by
  obtain ⟨-, rfl⟩ := funcpatEffect_ok_iff.1 h
  constructor <;> rfl

theorem placeEffect_control {s t : State} (h : placeEffect s = .ok t) : SameControl s t := by
  obtain ⟨-, rfl⟩ := placeEffect_ok_iff.1 h
  constructor <;> rfl

theorem penaltyEffect_control {s t : State} {m : Byte} (h : penaltyEffect m s = .ok t) : SameControl s t := by
  obtain ⟨-, -, rfl⟩ := penaltyEffect_ok_iff.1 h
  constructor <;> rfl

theorem maskselEffect_control {s t : State} (h : maskselEffect s = .ok t) : SameControl s t := by
  obtain ⟨-, rfl⟩ := maskselEffect_ok_iff.1 h
  constructor <;> simp [maskselCommit, State.maskMatrix]

theorem maskapplyEffect_control {s t : State} {m : Byte} (h : maskapplyEffect m s = .ok t) : SameControl s t := by
  obtain ⟨-, -, rfl⟩ := maskapplyEffect_ok_iff.1 h
  constructor <;> rfl

/-- A stage of RUN changes none of them either. -/
theorem stageEffect_control {stage : Fin 5} {s t : State} (h : stageEffect stage s = .ok t) : SameControl s t := by
  rw [stageEffect] at h
  split at h
  · exact packEffect_control h
  split at h
  · exact interleaveEffect_control h
  split at h
  · exact funcpatEffect_control h
  split at h
  · exact placeEffect_control h
  · exact maskselEffect_control h

/-! ### A fault carries a code -/

theorem withVersion_error {s : State} {k : Nat → Effect} {r : Raised} (h : s.withVersion k = .error r)
    (hk : ∀ v, k v = .error r → r.code ≠ .none) : r.code ≠ .none := by
  rw [State.withVersion] at h
  split at h
  · exact hk _ h
  · cases h; simp

theorem withColours_error {n : Nat} {m : Matrix} {t : State} {r : Raised} (h : withColours n m (.ok t) = .error r) :
    r.code ≠ .none := by
  rw [withColours] at h
  split at h <;> cases h
  simp

theorem packEffect_code {s : State} {r : Raised} (h : packEffect s = .error r) : r.code ≠ .none := by
  refine withVersion_error h fun v hv => ?_
  split at hv
  · next r' hp =>
    cases hv
    rw [packCompute] at hp
    repeat (first | split at hp | (cases hp; done) | (cases hp; simp) | dsimp only at hp)
  · cases hv

theorem genpolyEffect_code {s : State} {n : Byte} {r : Raised} (h : genpolyEffect n s = .error r) : r.code ≠ .none := by
  rw [genpolyEffect] at h
  split at h <;> cases h
  simp

theorem rsencEffect_code {s : State} {n : Byte} {r : Raised} (h : rsencEffect n s = .error r) : r.code ≠ .none := by
  rw [rsencEffect] at h
  split at h
  · cases h; simp
  · split at h <;> cases h
    simp

theorem interleaveEffect_code {s : State} {r : Raised} (h : interleaveEffect s = .error r) : r.code ≠ .none := by
  refine withVersion_error h fun v hv => ?_
  split at hv
  · next r' hp =>
    cases hv
    rw [interleaveCompute] at hp
    repeat (first | split at hp | (cases hp; done) | (cases hp; simp) | dsimp only at hp)
  · cases hv

theorem funcpatEffect_code {s : State} {r : Raised} (h : funcpatEffect s = .error r) : r.code ≠ .none := by
  refine withVersion_error h fun v hv => ?_
  split at hv <;> cases hv
  simp

theorem placeEffect_code {s : State} {r : Raised} (h : placeEffect s = .error r) : r.code ≠ .none := by
  refine withVersion_error h fun v hv => ?_
  rw [State.withMatrix_eq] at hv
  split at hv
  · cases hv; simp
  · split at hv <;> cases hv
    simp

theorem penaltyEffect_code {s : State} {m : Byte} {r : Raised} (h : penaltyEffect m s = .error r) : r.code ≠ .none := by
  rw [penaltyEffect] at h
  split at h
  · cases h; simp
  · exact withVersion_error h fun v hv => withColours_error (by rwa [State.withMatrix_eq] at hv)

theorem maskselEffect_code {s : State} {r : Raised} (h : maskselEffect s = .error r) : r.code ≠ .none :=
  withVersion_error h fun v hv => withColours_error (by rwa [State.withMatrix_eq] at hv)

theorem maskapplyEffect_code {s : State} {m : Byte} {r : Raised} (h : maskapplyEffect m s = .error r) : r.code ≠ .none := by
  rw [maskapplyEffect] at h
  split at h
  · cases h; simp
  · exact withVersion_error h fun v hv => withColours_error (by rwa [State.withMatrix_eq] at hv)

theorem stageEffect_code {stage : Fin 5} {s : State} {r : Raised} (h : stageEffect stage s = .error r) : r.code ≠ .none := by
  rw [stageEffect] at h
  split at h
  · exact packEffect_code h
  split at h
  · exact interleaveEffect_code h
  split at h
  · exact funcpatEffect_code h
  split at h
  · exact placeEffect_code h
  · exact maskselEffect_code h

/-! ### exec, by command -/

/-- The effect of a command other than RUN. -/
def effectOf : Instr → State → Effect
  | .nop, s => .ok s
  | .clear, s => .ok (clearResults s)
  | .pack, s => packEffect s
  | .genpoly n, s => genpolyEffect n s
  | .rsenc n, s => rsencEffect n s
  | .interleave, s => interleaveEffect s
  | .funcpat, s => funcpatEffect s
  | .place, s => placeEffect s
  | .penalty m, s => penaltyEffect m s
  | .masksel, s => maskselEffect s
  | .maskapply m, s => maskapplyEffect m s
  | .run, s => .ok s

/-- A command other than RUN runs its effect and ends under its own opcode. -/
theorem exec_eq_finish (i : Instr) (s : State) (h : i ≠ .run) : exec i s = s.finish i.opcode.code (effectOf i s) := by
  cases i <;> first | rfl | exact absurd rfl h

theorem effectOf_control {i : Instr} {s t : State} (h : effectOf i s = .ok t) : SameControl s t := by
  cases i <;> simp only [effectOf] at h
  case nop => cases h; exact .refl s
  case clear => cases h; constructor <;> rfl
  case pack => exact packEffect_control h
  case genpoly => exact genpolyEffect_control h
  case rsenc => exact rsencEffect_control h
  case interleave => exact interleaveEffect_control h
  case funcpat => exact funcpatEffect_control h
  case place => exact placeEffect_control h
  case penalty => exact penaltyEffect_control h
  case masksel => exact maskselEffect_control h
  case maskapply => exact maskapplyEffect_control h
  case run => cases h; exact .refl s

theorem effectOf_code {i : Instr} {s : State} {r : Raised} (h : effectOf i s = .error r) : r.code ≠ .none := by
  cases i <;> simp only [effectOf] at h
  case nop => cases h
  case clear => cases h
  case pack => exact packEffect_code h
  case genpoly => exact genpolyEffect_code h
  case rsenc => exact rsencEffect_code h
  case interleave => exact interleaveEffect_code h
  case funcpat => exact funcpatEffect_code h
  case place => exact placeEffect_code h
  case penalty => exact penaltyEffect_code h
  case masksel => exact maskselEffect_code h
  case maskapply => exact maskapplyEffect_code h
  case run => cases h

/-- RUN's stage runs the effect of its command under that command's opcode. -/
theorem stageEffect_eq {stage : Fin 5} {i : Instr} (h : stageCommands[stage.val]? = some i) (s : State) :
    stageEffect stage s = effectOf i s ∧ stageOpcode stage = i.opcode ∧ i ≠ .run := by
  have : stage = 0 ∨ stage = 1 ∨ stage = 2 ∨ stage = 3 ∨ stage = 4 := by omega
  rcases this with rfl | rfl | rfl | rfl | rfl <;> cases h <;> exact ⟨rfl, rfl, by simp⟩

end Sys2Proof.Machine
end

