-- ==== Sys2Proof/Laws/PerInstr.lean ====
section
/-! SUPPORT. Laws of every command as syntax, one lemma per constructor. The family EncodedFields: the word of a command has
its opcode in OP, its argument in ARG and 0 in RSV (30_encoding.md rules R100, R110), and its opcode is found again. -/

namespace Sys2Proof.Laws.EncodedFields

/-- The three fields of the word, and the opcode the OP field selects. -/
def Statement (i : Instr) : Prop :=
  opField (encode i) = i.opcode.code ∧ argField (encode i) = i.arg ∧ rsvField (encode i) = 0 ∧
    Opcode.ofCode i.opcode.code = some i.opcode

/-- The fields of a word laid out as RSV, ARG, OP. -/
theorem fields_of_layout (arg op : Byte) :
    opField ((0#16 ++ arg) ++ op) = op ∧ argField ((0#16 ++ arg) ++ op) = arg ∧ rsvField ((0#16 ++ arg) ++ op) = 0 := by
  have ha := arg.isLt
  have ho := op.isLt
  have hw : ((0#16 ++ arg) ++ op : BitVec (16 + 8 + 8)).toNat = arg.toNat * 256 + op.toNat := by
    rw [BitVec.toNat_append, BitVec.toNat_append, ← Nat.shiftLeft_add_eq_or_of_lt ho]
    simp [Nat.shiftLeft_eq]
  refine ⟨BitVec.eq_of_toNat_eq ?_, BitVec.eq_of_toNat_eq ?_, BitVec.eq_of_toNat_eq ?_⟩
  · rw [opField, BitVec.extractLsb'_toNat, hw, Nat.shiftRight_zero]; omega
  · rw [argField, BitVec.extractLsb'_toNat, hw, Nat.shiftRight_eq_div_pow]; omega
  · rw [rsvField, BitVec.extractLsb'_toNat, hw, Nat.shiftRight_eq_div_pow]
    show _ = 0
    omega

/-- Every opcode is found again from its code. -/
theorem ofCode_code (op : Opcode) : Opcode.ofCode op.code = some op := by cases op <;> decide

theorem statement_of_opcode (i : Instr) : Statement i :=
  ⟨(fields_of_layout _ _).1, (fields_of_layout _ _).2.1, (fields_of_layout _ _).2.2, ofCode_code _⟩

theorem nop : Statement .nop := statement_of_opcode _
theorem clear : Statement .clear := statement_of_opcode _
theorem pack : Statement .pack := statement_of_opcode _
theorem genpoly (n : Byte) : Statement (.genpoly n) := statement_of_opcode _
theorem rsenc (n : Byte) : Statement (.rsenc n) := statement_of_opcode _
theorem interleave : Statement .interleave := statement_of_opcode _
theorem funcpat : Statement .funcpat := statement_of_opcode _
theorem place : Statement .place := statement_of_opcode _
theorem penalty (m : Byte) : Statement (.penalty m) := statement_of_opcode _
theorem masksel : Statement .masksel := statement_of_opcode _
theorem maskapply (m : Byte) : Statement (.maskapply m) := statement_of_opcode _
theorem run : Statement .run := statement_of_opcode _

end Sys2Proof.Laws.EncodedFields
end

