-- ==== Sys2Proof/Tests/Slice0.lean ====
section
/-! SUPPORT. The model's own tests: ill-formed commands are refused by WellFormed, words written out from 30_encoding.md rule
R110 decode to their commands and illegal ones are rejected by name, one-step results of the spec's worked examples, and for
every statement with hypotheses a concrete state that meets them. -/

open Sys2Proof Sys2Proof.Machine Sys2Proof.Config

namespace Sys2Proof.Tests

/-! ### WellFormed smoke: one ill-formed command, or both ends of the range, for each check (rule R102) -/

theorem test_wf_genpoly : (Instr.genpoly 0).wf = false ∧ (Instr.genpoly 31).wf = false ∧ (Instr.genpoly 30).wf = true := by
  decide
theorem test_wf_rsenc : (Instr.rsenc 0).wf = false ∧ (Instr.rsenc 31).wf = false ∧ (Instr.rsenc 1).wf = true := by decide
theorem test_wf_penalty :
    (Instr.penalty 8).wf = false ∧ (Instr.penalty 0xFE).wf = false ∧ (Instr.penalty 7).wf = true ∧
      (Instr.penalty 0xFF).wf = true := by
  decide
theorem test_wf_maskapply :
    (Instr.maskapply 8).wf = false ∧ (Instr.maskapply 0xFF).wf = false ∧ (Instr.maskapply 7).wf = true := by
  decide

/-! ### Decoding: the patterns of rule R110, the reasons of rule R111 -/

theorem test_decode_nop : decode 0b00000000000000000000000000000000 = .ok .nop := by decide
theorem test_decode_clear : decode 0b00000000000000000000000000000001 = .ok .clear := by decide
theorem test_decode_pack : decode 0b00000000000000000000000000010000 = .ok .pack := by decide
theorem test_decode_genpoly : decode 0b00000000000000000000101000100000 = .ok (.genpoly 10) := by decide
theorem test_decode_rsenc : decode 0b00000000000000000001111000100001 = .ok (.rsenc 30) := by decide
theorem test_decode_interleave : decode 0b00000000000000000000000000100010 = .ok .interleave := by decide
theorem test_decode_funcpat : decode 0b00000000000000000000000000110000 = .ok .funcpat := by decide
theorem test_decode_place : decode 0b00000000000000000000000000110001 = .ok .place := by decide
theorem test_decode_penalty : decode 0b00000000000000001111111101000000 = .ok (.penalty 0xFF) := by decide
theorem test_decode_masksel : decode 0b00000000000000000000000001000001 = .ok .masksel := by decide
theorem test_decode_maskapply : decode 0b00000000000000000000010101000010 = .ok (.maskapply 5) := by decide
theorem test_decode_run : decode 0b00000000000000000000000011110000 = .ok .run := by decide

theorem test_decode_unassigned : decode 0x00000002 = .error .unassignedOpcode ∧ decode 0xFFFF01FF = .error .unassignedOpcode := by
  decide
theorem test_decode_reserved : decode 0x00010000 = .error .reservedNonzero ∧ decode 0x80000120 = .error .reservedNonzero := by
  decide
theorem test_decode_argument : decode 0x000001F0 = .error .argumentNotZero ∧ decode 0x0000FF00 = .error .argumentNotZero := by
  decide
theorem test_decode_range :
    decode 0x00000020 = .error .argumentOutOfRange ∧ decode 0x00001F21 = .error .argumentOutOfRange ∧
      decode 0x00000840 = .error .argumentOutOfRange ∧ decode 0x00000842 = .error .argumentOutOfRange := by
  decide

theorem test_decodeTableWord : decodeTableWord 32 0x0A20 = some (.genpoly 10) ∧ decodeTableWord 32 0x00F1 = none := by decide

/-! ### Small states -/

/-- After SETCFG A, L, 1 and WRMSG "HELLO WORLD" (95_test_vectors.md program P1). -/
def hello : State :=
  { State.reset with
    mode := .alphanumeric, version := 1, msgLen := 11
    msg := [(0, 0x48), (1, 0x45), (2, 0x4C), (3, 0x4C), (4, 0x4F), (5, 0x20), (6, 0x57), (7, 0x4F), (8, 0x52), (9, 0x4C),
      (10, 0x44)] }

/-- `hello` after PACK: the data codewords of rule R130's example. -/
def packed : State :=
  { hello with
    dcw := [(0, 0x20), (1, 0x5B), (2, 0x0B), (3, 0x78), (4, 0xD1), (5, 0x72), (6, 0xDC), (7, 0x4D), (8, 0x43), (9, 0x40),
      (10, 0xEC), (11, 0x11), (12, 0xEC), (13, 0x11), (14, 0xEC), (15, 0x11), (16, 0xEC), (17, 0x11), (18, 0xEC)]
    dcwValid := true, dcwCount := 19, dbits := 74 }

/-- RS_K = 16 and RSBUF = the 1-M data codewords of rule R167's example. -/
def rsLoaded : State :=
  { State.reset with
    rsK := 16
    rsbuf := [(0, 32), (1, 91), (2, 11), (3, 120), (4, 209), (5, 114), (6, 220), (7, 77), (8, 67), (9, 64), (10, 236), (11, 17),
      (12, 236), (13, 17), (14, 236), (15, 17)] }

/-- Version 1, every cell Background but (20, 20), Empty; a stream of one bit, 1. -/
def oneEmpty : State :=
  State.setWholeMatrix { State.reset with version := 1, streamValid := true, streamBits := 1, stream := [(0, 0x80)] }
    fun r c => if r = 20 ∧ c = 20 then emptyCell else backgroundCell

/-- Version 1, every cell Background. -/
def allBackground : State := State.setWholeMatrix { State.reset with version := 1 } fun _ _ => backgroundCell

/-- Executing RUN's stage k with the inputs of `hello`. -/
def running (stage : Fin 5) (s : State) : State := { s with seq := .exec (encode .run) stage }

/-- What a command leaves, for the tests below. -/
def after (o : Host.Outcome State Fault Refusal) : State :=
  match o with
  | .next t => t
  | .fault _ => State.reset
  | .refused _ => State.reset

/-! ### The commands: the spec's worked examples -/

theorem test_nop : (after (exec .nop hello)).done = true ∧ (after (exec .nop hello)).msgLen = 11 := by decide

theorem test_clear :
    (after (exec .clear packed)).statusWord = 2 ∧ (after (exec .clear packed)).dcw = packed.dcw ∧
      (after (exec .clear packed)).dcwCount = 0 := by
  decide +kernel

/-- Rule R130's example: D = 19, DBITS = 74. -/
theorem test_pack_registers : (after (exec .pack hello)).dbits = 74 ∧ (after (exec .pack hello)).dcwCount = 19 := by
  decide +kernel
/-- Rule R130's example: the nineteen codewords. -/
theorem test_pack_codewords : (after (exec .pack hello)).dcw = packed.dcw := by decide +kernel

/-- Rule R166's example. -/
theorem test_genpoly :
    (genpoly 10) = [0, 251, 67, 46, 61, 118, 70, 64, 94, 32, 45] ∧ (after (exec (.genpoly 10) hello)).genDeg = 10 ∧
      (after (exec (.genpoly 10) hello)).gen[3] = 46 := by
  decide +kernel
/-- Rule R164's values. -/
theorem test_genpoly_small : genpoly 1 = [0, 0] ∧ genpoly 2 = [0, 25, 1] ∧ genpoly 3 = [0, 198, 199, 3] := by decide +kernel

/-- Rule R167's example: the ten EC codewords, then zeros. -/
theorem test_rsenc :
    ((after (exec (.rsenc 10) rsLoaded)).rsec.map fun x => x.2.toNat) =
      [196, 35, 39, 119, 235, 215, 231, 226, 93, 23] ++ List.replicate 22 0 := by
  decide +kernel
/-- Rule R165's example. -/
theorem test_remainder : rsRemainder [1, 2, 3] 3 = [92, 236, 176] := by decide +kernel

/-- Rule R180's example: STREAM_BITS and the seven EC codewords at the end. -/
theorem test_interleave :
    (after (exec .interleave packed)).streamBits = 208 ∧
      ((after (exec .interleave packed)).stream.drop 18).map (fun x => x.2.toNat) =
        [0xEC, 0xD1, 0xEF, 0xC4, 0xCF, 0x4E, 0xC3, 0x6D] := by
  decide +kernel
/-- Rule R187's two-group example: how the data part begins. -/
theorem test_interleave_groups :
    (interleaveColumns 16 (blocksOf ⟨2, 15, 2, 16, 18⟩ ((List.range 62).map (BitVec.ofNat 8)))).take 9 =
      [0, 15, 30, 46, 1, 16, 31, 47, 2] := by
  decide +kernel

/-- Rule R203's picture: rows 13 and 8 around the dark module and the timing crossing. -/
theorem test_funcpat :
    ((List.range 10).map fun c => functionPatterns 1 [] 13 c) = [4, 4, 4, 4, 4, 4, 4, 4, 5, 0] ∧
      ((List.range 10).map fun c => functionPatterns 1 [] 8 c) = [1, 1, 1, 1, 1, 1, 5, 1, 1, 0] := by
  decide +kernel
/-- Rule R203: row 17 of the alignment pattern of version 2. -/
theorem test_funcpat_alignment :
    ((List.range 5).map fun c => functionPatterns 2 (refAlignmentPairs defaultRefData 2) 17 (16 + c)) = [5, 4, 4, 4, 5] := by
  decide +kernel

/-- Rule R212: how the traversal of version 1 begins, and where it passes column 6. -/
theorem test_place_order :
    (placeOrder 21).take 4 = [(20, 20), (20, 19), (19, 20), (19, 19)] ∧
      ((placeOrder 21).drop 293).take 3 = [(0, 7), (0, 5), (0, 4)] ∧ (placeOrder 21).length = 420 := by
  decide +kernel
/-- Rule R207: bit 1 gives Foreground. -/
theorem test_place :
    placements 21 (fun r c => if r = 20 ∧ c = 20 then emptyCell else backgroundCell) [true] = [(177 * 20 + 20, 3)] := by
  decide +kernel

/-- Rule R229's example: version 1, every cell Background. -/
theorem test_penalty : scoreOf .complement 21 (fun _ _ => backgroundCell) = ⟨798, 1200, 0, 90⟩ := by decide +kernel

/-- Rule R230's corner case: all eight totals equal give mask 0. -/
theorem test_masksel_tie : (selectMask .complement 6 fun _ _ => reservedCell).best.mask = 0 := by decide +kernel
/-- Rule R231: the first least total wins. -/
theorem test_masksel_better :
    (better ⟨2, ⟨5, 0, 0, 0⟩⟩ ⟨3, ⟨5, 0, 0, 0⟩⟩).mask = 2 ∧ (better ⟨2, ⟨5, 0, 0, 0⟩⟩ ⟨3, ⟨4, 0, 0, 0⟩⟩).mask = 3 := by decide

/-- Rule R221's table: masks 4 to 7 on row 1, columns 0 to 5. -/
theorem test_mask_predicates :
    ((List.range 6).map (maskPred 4 1)) = [true, true, true, false, false, false] ∧
      ((List.range 6).map (maskPred 5 1)) = [true, false, false, false, false, false] ∧
      ((List.range 6).map (maskPred 6 1)) = [true, true, true, false, false, false] ∧
      ((List.range 6).map (maskPred 7 1)) = [false, false, false, true, true, true] := by
  decide
/-- Rule R222: data cells where the predicate holds swap, pattern and Reserved cells stand. -/
theorem test_maskapply :
    applyMask 21 0 (fun _ _ => 2) 0 0 = 3 ∧ applyMask 21 0 (fun _ _ => 3) 1 1 = 2 ∧ applyMask 21 0 (fun _ _ => 2) 0 1 = 2 ∧
      applyMask 21 0 (fun _ _ => 5) 0 0 = 5 ∧ applyMask 21 0 (fun _ _ => 1) 0 0 = 1 := by
  decide

/-- Rule R252: RUN's first stage packs and goes on to stage 1. -/
theorem test_run_stage :
    (after (exec .run (running 0 hello))).seq = .exec 0xF0 1 ∧ (after (exec .run (running 0 hello))).done = false ∧
      (after (exec .run (running 0 hello))).dbits = 74 := by
  decide +kernel
/-- Rule R252: a fault in stage 1 names INTERLEAVE's opcode. -/
theorem test_run_fault :
    (after (exec .run (running 1 hello))).fault = ⟨.sequence, 0x22, 1⟩ ∧ (after (exec .run (running 1 hello))).seq = .idle := by
  decide +kernel

/-! ### The bus and the step -/

theorem test_read_id : (hello.access (.read32 0)).reply = ⟨false, 0x51520007⟩ := by decide
theorem test_setcfg :
    (accesses (setcfg .alphanumeric .high 5)) = [.access (.write32 0x14 0x513)] ∧
      (hello.access (.write32 0x14 0x513)).level = .high := by
  decide
theorem test_read_msg_word : (hello.access (.read32 0x1000)).reply = ⟨false, 0x4C4C4548⟩ := by decide +kernel
/-- Rule R60: MSG offset 7089 (0x2BB1) is beyond the backed size and reads 0, while BUSY too. -/
theorem test_busy_read_unbacked : ((running 0 hello).access (.read8 0x2BB1)).reply = ⟨false, 0⟩ :=
  congrArg (Reply.mk false) (BitVec.and_zero (x := busyReadDraw 0))
/-- Rules R60, R63, R297: of the word at 0x2BB0 only the byte in bits [7:0] is backed, so only it is unspecified while BUSY. -/
theorem test_busy_read_straddling :
    ((running 0 hello).access (.read32 0x2BB0)).reply = ⟨false, busyReadDraw 0 &&& 0xFF⟩ := rfl
/-- Rule R32: CMD reads 0. -/
theorem test_busy_read_cmd : ((running 0 hello).access (.read32 0x10)).reply = ⟨false, 0⟩ := by decide
theorem test_withFetchWord :
    (after (step (hello.withFetchWord 32 0x00))).done = true ∧
      (after (step (hello.withFetchWord 32 0x10020))).fault = ⟨.illegal, 0x20, 1⟩ := by
  decide
theorem test_host_issues_nop :
    (after (Sys2Proof.core.run 2 { hello with inputs := issueAndStep .nop })).statusWord = 2 := by
  decide +kernel

/-! ### Witnesses: for every statement with hypotheses, a state that meets them -/

theorem witness_IllegalWordFaults :
    (running 0 hello).seq = .exec 0xF0 0 ∧ (running 0 hello).inputs = [] ∧
      { running 0 hello with inputs := [.sequencer, .sequencer] }.inputs = .sequencer :: [.sequencer] ∧ illegalInfo 0 0x02 = some 0 ∧
      illegalInfo 0 0x000100F0 = some 1 ∧ illegalInfo 0 0x000001F0 = some 2 ∧ illegalInfo 0 0x0020 = some 3 ∧
      illegalInfo 0 0x1F20 = some 3 ∧ illegalInfo 0 0x0840 = some 3 ∧ illegalInfo 0 0xFE40 = some 3 ∧
      illegalInfo 0 0x0842 = some 3 ∧ illegalInfo 255 0x0121 = some 4 ∧ illegalInfo 254 0x0121 = none ∧
      illegalInfo 0 0xFF40 = none := by
  decide

theorem witness_StepRunsDecodedCommand :
    (running 0 hello).seq = .exec (encode .run) 0 ∧ decode (encode .run) = .ok .run ∧ (running 0 hello).inputs = [] ∧
      { running 0 hello with inputs := [.sequencer, .sequencer] }.inputs = .sequencer :: [.sequencer] := by
  decide

theorem witness_StepTakesNextAct :
    { hello with inputs := [.access (.read8 0)] }.inputs = .access (.read8 0) :: [] ∧
      { hello with inputs := [.reset none] }.inputs = .reset none :: [] ∧ hello.seq = .idle ∧ hello.inputs = [] ∧
      { hello with inputs := [.sequencer] }.inputs = .sequencer :: [] := by
  decide

theorem witness_ResetState : 7088 < Window.msg.size ∧ 31328 < Window.matrix.size := by decide

theorem witness_ResetAbortsCommand :
    { running 2 hello with inputs := [.reset (some (.write32 0x10 0))] }.inputs = .reset (some (.write32 0x10 0)) :: [] ∧
      7088 < Window.msg.size ∧ 31328 < Window.matrix.size := by
  decide

theorem witness_BusErrors :
    (0xFF : Addr).toNat < 0x100 ∧ (2 : Addr).toNat % 4 ≠ 0 ∧ 0x100 ≤ (0x100 : Addr).toNat ∧ (0xFFFC : Addr).toNat % 4 = 0 := by
  decide

theorem witness_ReservedBitsAndOffsets :
    Reg.cfg ≠ .cmd ∧ (0xFFFFFFFF : Word) &&& Reg.cfg.fieldBits = 0x3F33 &&& Reg.cfg.fieldBits ∧
      (0x5C : Addr).toNat % 4 = 0 ∧ (0x48 ≤ (0x5C : Addr).toNat ∧ (0x5C : Addr).toNat ≤ 0x5C) ∧ (0xFC : Addr).toNat = 0xFC := by
  decide

theorem witness_WindowReads :
    hello.seq = .idle ∧ 0x100 ≤ (0x100 : Addr).toNat ∧ 0x100 ≤ (0xFFFC : Addr).toNat ∧ (0xFFFC : Addr).toNat % 4 = 0 ∧
      (0x2BB1 ≤ (0x2BB1 : Addr).toNat ∧ (0x2BB1 : Addr).toNat < 0x3000) ∧ 0xFA61 ≤ (0xFFFF : Addr).toNat := by
  decide

theorem witness_WindowWrites :
    hello.buffersCanonical ∧ hello.seq = .idle ∧ 0x100 ≤ (0x2BB0 : Addr).toNat ∧ (0x2BB0 : Addr).toNat % 4 = 0 ∧
      msgBacked 0x2BB0 ∧ ¬hostStorable 0x2BB1 ∧ hostStorable 0xFA60 ∧ ¬hostStorable 0xFA61 := by
  unfold State.buffersCanonical
  decide

theorem witness_ReadOnlyWritesIgnored :
    Reg.id.readOnly = true ∧ 0x100 ≤ (0x3000 : Addr).toNat ∧ ¬hostStorable 0x3000 ∧ (0x2BB4 : Addr).toNat % 4 = 0 ∧
      ¬hostStorable 0x2BB4 ∧ hello.seq = .idle := by
  decide

theorem handshake_running (stage : Fin 5) (s : State) (hd : s.done = false) (hf : s.fault = FaultReg.zero) :
    (running stage s).Handshake where
  doneOrFaulted h := by rw [show (running stage s).done = s.done from rfl, hd] at h; cases h
  busyNotDone _ := hd
  busyNotFaulted _ := by
    rw [State.faulted, show (running stage s).fault = s.fault from rfl, hf]; rfl
  faultWhole _ := hf
  stageOfRun w k h _ := by
    obtain ⟨rfl, -⟩ := (show encode Instr.run = w ∧ stage = k by injection h with a b; exact ⟨a, b⟩)
    decide

theorem witness_BusyWritesDropped :
    (running 3 hello).Handshake ∧ (running 3 hello).seq ≠ .idle ∧ Reg.cmd ∈ Reg.busyDropped ∧ hostStorable 0x5000 ∧
      (0x5000 : Addr).toNat % 4 = 0 ∧ Reg.pen1.readOnly = true ∧
      (0x3000 ≤ (0x3000 : Addr).toNat ∧ (0x3000 : Addr).toNat < 0x5000) ∧
      (0x5100 ≤ (0x511C : Addr).toNat ∧ (0x511C : Addr).toNat < 0x5120) ∧ (0x511C : Addr).toNat % 4 = 0 := by
  exact ⟨handshake_running _ _ rfl rfl, by decide⟩

theorem witness_HostReads :
    hello.seq = .idle ∧ (running 0 hello).seq ≠ .idle ∧ Reg.rsK ∈ [Reg.id, .ctrl, .status, .fault, .cfg, .msgLen, .rsK] ∧
      Reg.dbits ∉ [Reg.id, .ctrl, .status, .fault, .cmd, .cfg, .msgLen, .rsK] ∧ 0x8000 ≤ (0x8000 : Addr).toNat ∧
      (0x8000 : Addr).toNat % 4 = 0 ∧ 0x1000 ≤ (0x2BB0 : Addr).toNat ∧ (0x511C : Addr).toNat < 0x5120 ∧
      (0x511C : Addr).toNat % 4 = 0 ∧ busyFree 0x2BB0 = 0xFF ∧ busyFree 0x2BB1 = 0 ∧ busyFree 0xFA60 = 7 ∧
      busyFree 0xFA61 = 0 ∧ 0x100 ≤ (0xFFC : Addr).toNat ∧ (0xFFC : Addr).toNat < 0x1000 ∧ (0xFFC : Addr).toNat % 4 = 0 ∧
      0x5120 ≤ (0x7FFC : Addr).toNat ∧ (0x7FFC : Addr).toNat < 0x8000 := by
  decide

theorem witness_FaultRegister :
    hello.seq = .idle ∧ { hello with fault := ⟨.config, 0x10, 1⟩ }.fault.code ≠ .none ∧ (∀ v, Access.write32 0x0014 1 ≠ .write32 0x000C v) ∧
      exec .pack { hello with version := 0 } =
        .next { hello with version := 0, fault := ⟨.config, 0x10, 1⟩, seq := .idle } := by
  refine ⟨rfl, by decide, fun v h => ?_, rfl⟩
  injection h with h
  exact absurd h (by decide)

theorem witness_CommandAcceptance :
    hello.seq = .idle ∧ hello.fault.code = .none ∧ (running 0 hello).seq ≠ .idle ∧
      { hello with fault := ⟨.config, 0x10, 1⟩ }.fault.code ≠ .none := by
  decide

theorem witness_ReadWriteRegisters :
    hello.seq = .idle ∧ ((0x33 : Word).extractLsb' 0 2).toNat = 3 ∧ ((0x33 : Word).extractLsb' 4 2).toNat = 3 ∧
      ((0 : Word).extractLsb' 0 2).toNat = 0 ∧ ((0 : Word).extractLsb' 4 2).toNat = 0 := by
  decide

theorem witness_InterruptOutput :
    (running 0 hello).Handshake ∧ State.Handshake { hello with ie := true, done := true } ∧
      State.Handshake { hello with ie := true, fault := ⟨.config, 0x10, 1⟩ } ∧ (2 : Word).getLsbD 1 = true ∧
      Instr.nop ≠ .run := by
  refine ⟨handshake_running _ _ rfl rfl, ⟨by decide, by decide, by decide, by decide, ?_⟩,
    ⟨by decide, by decide, by decide, by decide, ?_⟩, by decide⟩ <;> intro w k h <;> cases h

theorem witness_NopCompletes :
    opField 0x00010100 = 0 ∧ (0x00010100 : Word) ≠ 0 ∧ rsvField 0x00010100 ≠ 0 ∧ opField 0x0100 = 0 ∧ rsvField 0x0100 = 0 := by
  decide

theorem hello_packReady : PackReady hello .alphanumeric where
  version := by decide
  modePacked := rfl
  length := by decide
  charset := by decide +kernel
  plan := by decide +kernel
  countFits := by decide +kernel
  capacity := by decide +kernel

theorem hello_canonical : hello.buffersCanonical := by unfold State.buffersCanonical; decide

theorem witness_PackCompletes : hello.buffersCanonical ∧ PackReady hello .alphanumeric := ⟨hello_canonical, hello_packReady⟩

/-- Byte mode: every byte is legal, so the length decides which check fails first. -/
def byteMode (len : BitVec 14) : State := { State.reset with mode := .byte, version := 1, msgLen := len }

/-- A REFDATA without plans. -/
def noPlans : Params := ⟨{ defaultRefData with plans := ⟨[], [], [], []⟩ }, .complement⟩

theorem witness_PackFaultOrder_config : (1 ≤ hello.versionNat ∧ hello.versionNat ≤ 40) ∧ { hello with mode := .kanji }.mode = .kanji := by
  decide
theorem witness_PackFaultOrder_overflow0 : packMode (byteMode 7090).mode = some .byte ∧ 7089 < (byteMode 7090).msgLen.toNat := by decide
theorem witness_PackFaultOrder_charset :
    packMode { hello with mode := .numeric, msg := [(0, 0x31), (1, 0x41)] }.mode = some .numeric ∧
      (1 : Nat) < { hello with mode := .numeric, msg := [(0, 0x31), (1, 0x41)] }.msgLen.toNat ∧
      charLegal defaultRefData .numeric (State.msgByte { hello with mode := .numeric, msg := [(0, 0x31), (1, 0x41)] } 1) = false ∧
      ∀ j, j < 1 →
        charLegal defaultRefData .numeric (State.msgByte { hello with mode := .numeric, msg := [(0, 0x31), (1, 0x41)] } j) = true := by
  decide +kernel
theorem witness_PackFaultOrder_refdata :
    (∀ i, i < (byteMode 3).msgLen.toNat → charLegal noPlans.refdata .byte ((byteMode 3).msgByte i) = true) ∧
      planOk (configuredPlan { byteMode 3 with params := noPlans }) = false := by
  exact ⟨fun _ _ => rfl, by decide⟩
theorem witness_PackFaultOrder_overflow1 :
    planOk (configuredPlan (byteMode 256)) = true ∧
      2 ^ refCcWidth (byteMode 256).params.refdata .byte (tierOf (byteMode 256).versionNat) ≤ (byteMode 256).msgLen.toNat := by
  decide +kernel
theorem witness_PackFaultOrder_overflow2 :
    (byteMode 18).msgLen.toNat < 2 ^ refCcWidth (byteMode 18).params.refdata .byte (tierOf (byteMode 18).versionNat) ∧
      8 * planData (configuredPlan (byteMode 18)) < (packString (byteMode 18) .byte).length := by
  refine ⟨by decide +kernel, ?_⟩
  have h : (packString (byteMode 18) .byte).length = 4 + 8 + 8 * 18 := by
    simp [packString, packHeader, packData, bitsOfBytes, bin, firstBytes, byteMode, List.range_succ]
    rfl
  rw [h]
  decide +kernel

theorem witness_MessageFields :
    (11 : Nat) < 2 ^ refCcWidth defaultRefData .alphanumeric .tier0 ∧
      (∀ x ∈ ([0x30, 0x39, 0x35, 0x31] : List Byte), 0x30 ≤ x.toNat ∧ x.toNat ≤ 0x39) ∧
      ([0x41, 0x3A] : List Byte).map (refAlnumValue defaultRefData) = ([10, 44] : List (Fin 45)).map some := by
  decide +kernel

theorem witness_PaddingFillsCapacity : (List.replicate 74 true : Bits).length ≤ 8 * 19 ∧ (List.replicate 8 true : Bits).length ≤ 8 * 1 := by
  decide

theorem witness_RemainderDivides :
    ([1, 2, 3] : List Byte).length + 3 ≤ 255 ∧ ([92, 236, 176] : List Byte).length = 3 ∧
      ∀ i, i < 3 → gfEval ([1, 2, 3] ++ [92, 236, 176]) (gfExp i) = 0 := by
  decide +kernel

theorem witness_RemainderLinear : ([1, 2] : List Byte).length = ([255, 0] : List Byte).length ∧ 1 ≤ 30 := by decide

theorem witness_GenpolyCompletes :
    1 ≤ (30 : Byte).toNat ∧ (30 : Byte).toNat ≤ 30 ∧ (0 : Byte).toNat = 0 ∧ 30 < (31 : Byte).toNat := by
  decide

theorem witness_RsencCompletes :
    rsLoaded.buffersCanonical ∧ 1 ≤ (30 : Byte).toNat ∧ (30 : Byte).toNat ≤ 30 ∧ rsLoaded.rsK.toNat + (30 : Byte).toNat ≤ 255 ∧
      { rsLoaded with rsK := 225 }.rsK.toNat + (30 : Byte).toNat ≤ 255 ∧ 30 < (31 : Byte).toNat ∧
      255 < { rsLoaded with rsK := 226 }.rsK.toNat + (30 : Byte).toNat := by
  unfold State.buffersCanonical
  decide

theorem witness_InterleaveCompletes : packed.buffersCanonical ∧ InterleaveReady packed := by
  refine ⟨?_, ⟨by decide, rfl, by decide +kernel, by decide +kernel⟩⟩
  unfold State.buffersCanonical
  decide

/-- A REFDATA whose only plan is well formed and whose stream is longer than the STREAM buffer. -/
def longStream : Params :=
  ⟨{ defaultRefData with plans := ⟨[⟨130, 2, 0, 0, 30⟩], [], [], []⟩ }, .complement⟩

theorem witness_InterleaveFaultOrder :
    (1 ≤ hello.versionNat ∧ hello.versionNat ≤ 40) ∧ hello.dcwValid = false ∧ packed.dcwValid = true ∧
      planOk (configuredPlan { packed with params := noPlans }) = false ∧
      planOk (configuredPlan { packed with params := longStream }) = true ∧
      8 * 3707 < configuredStreamLength { packed with params := longStream } := by
  decide +kernel

theorem witness_BlockSplit : (List.replicate 62 (0 : Byte)).length = planData ⟨2, 15, 2, 16, 18⟩ := by decide

theorem witness_InterleavePermutes :
    (List.replicate 62 (0 : Byte)).length = planData ⟨2, 15, 2, 16, 18⟩ ∧ (16 : Nat) = 15 + 1 ∧ 0 < (2 : Nat) ∧
      (List.replicate 19 (0 : Byte)).length = planData ⟨1, 19, 0, 0, 7⟩ := by decide

theorem hello_funcpatReady : FuncpatReady hello := ⟨by decide, by decide +kernel⟩

/-- Version 2, which has an alignment pattern. -/
theorem witness_FuncpatCompletes : FuncpatReady hello ∧ FuncpatReady { hello with version := 2 } :=
  ⟨hello_funcpatReady, ⟨by decide, by decide +kernel⟩⟩

theorem witness_FunctionPatternCells :
    (18, 18) ∈ refAlignmentPairs defaultRefData 2 ∧ (4 * 40 + 17 = 177) ∧ 8 ≤ 177 - 9 := by decide +kernel

/-- Centres too near to an edge. -/
def badCentres : Params := ⟨{ defaultRefData with alignmentPairs := [[(1, 10)]] }, .complement⟩

theorem cells_oneEmpty (r c : Nat) (hr : r < 177) (hc : c < 177) :
    oneEmpty.cell r c = if r = 20 ∧ c = 20 then emptyCell else backgroundCell :=
  State.setWholeMatrix_cell _ _ hr hc

theorem cells_allBackground (r c : Nat) (hr : r < 177) (hc : c < 177) : allBackground.cell r c = backgroundCell :=
  State.setWholeMatrix_cell _ _ hr hc

theorem emptyCount_congr {n : Nat} {m m' : Machine.Matrix} (h : ∀ r c, r < n → c < n → m r c = m' r c) :
    emptyCount n m = emptyCount n m' := by
  refine List.countP_congr fun p hp => ?_
  rw [h p.1 p.2 (mem_cellsOf.1 hp).1 (mem_cellsOf.1 hp).2]

theorem oneEmpty_count : emptyCount (configuredSide oneEmpty) oneEmpty.cell = 1 := by
  have : configuredSide oneEmpty = 21 := by decide
  rw [this, emptyCount_congr (m' := fun r c => if r = 20 ∧ c = 20 then emptyCell else backgroundCell)
    fun r c hr hc => cells_oneEmpty r c (by omega) (by omega)]
  decide +kernel

theorem witness_MatrixFaultOrder :
    (1 ≤ hello.versionNat ∧ hello.versionNat ≤ 40) ∧
      (∃ p ∈ refAlignmentPairs badCentres.refdata hello.versionNat, p.1 < 2) ∧ hello.streamValid = false ∧
      oneEmpty.streamValid = true ∧
      emptyCount (configuredSide { oneEmpty with streamBits := 2 }) oneEmpty.cell ≠ { oneEmpty with streamBits := 2 }.streamBits.toNat := by
  refine ⟨by decide, by decide, rfl, rfl, ?_⟩
  rw [show configuredSide { oneEmpty with streamBits := 2 } = configuredSide oneEmpty from rfl, oneEmpty_count]
  decide

theorem oneEmpty_canonical : oneEmpty.buffersCanonical :=
  ⟨Memory.nil_wf _, Memory.nil_wf _, by decide, Memory.nil_wf _, Memory.nil_wf _,
    wholeMatrix_wf fun r c => if r = 20 ∧ c = 20 then emptyCell else backgroundCell⟩

theorem witness_PlaceCompletes : oneEmpty.buffersCanonical ∧ PlaceReady oneEmpty :=
  ⟨oneEmpty_canonical, ⟨by decide, rfl, by rw [oneEmpty_count]; rfl⟩⟩

theorem witness_TraversalOrder : (4 * 1 + 17 = 21) ∧ 9 < (21 - 1) / 2 ∧ 20 < 21 := by decide

theorem witness_NoEmptyAfterPlace :
    oneEmpty.buffersCanonical ∧ PlaceReady oneEmpty ∧ ∀ r < configuredSide oneEmpty, oneEmpty.cell r 6 ≠ emptyCell := by
  refine ⟨oneEmpty_canonical, witness_PlaceCompletes.2, fun r hr => ?_⟩
  have : configuredSide oneEmpty = 21 := by decide
  rw [cells_oneEmpty r 6 (by omega) (by omega)]
  simp [emptyCell, backgroundCell]

theorem witness_PenaltyRules : 1 ≤ 21 := by decide

theorem witness_PenaltyBounds : 1 ≤ 177 ∧ 177 ≤ 177 ∧ 441 ≤ 21 * 21 := by decide

theorem witness_MaskLaws :
    maskPred 0 0 0 = true ∧ maskPred 0 0 1 = false ∧ patternForegroundCell ≠ backgroundCell ∧
      patternForegroundCell ≠ foregroundCell := by
  decide

theorem allBackground_maskReady : MaskReady allBackground := by
  refine ⟨by decide, fun r c hr hc => ?_⟩
  have : configuredSide allBackground = 21 := by decide
  rw [cells_allBackground r c (by omega) (by omega)]
  decide

theorem allBackground_canonical : allBackground.buffersCanonical :=
  ⟨Memory.nil_wf _, Memory.nil_wf _, Memory.nil_wf _, Memory.nil_wf _, Memory.nil_wf _,
    wholeMatrix_wf fun _ _ => backgroundCell⟩

theorem witness_PenaltyCompletes :
    ((0xFF : Byte).toNat ≤ 7 ∨ (0xFF : Byte) = 0xFF) ∧ (7 : Byte).toNat ≤ 7 ∧ MaskReady allBackground ∧
      8 ≤ (8 : Byte).toNat ∧ (0xFE : Byte).toNat ≤ 0xFE :=
  ⟨by decide, by decide, allBackground_maskReady, by decide, by decide⟩

theorem witness_MaskselCompletes : allBackground.buffersCanonical ∧ MaskReady allBackground :=
  ⟨allBackground_canonical, allBackground_maskReady⟩

theorem witness_MaskapplyCompletes :
    allBackground.buffersCanonical ∧ (7 : Byte).toNat ≤ 7 ∧ MaskReady allBackground ∧ 7 < (8 : Byte).toNat :=
  ⟨allBackground_canonical, by decide, allBackground_maskReady, by decide⟩

theorem witness_MaskFaultsOnFirstColourlessCell :
    (1 ≤ oneEmpty.versionNat ∧ oneEmpty.versionNat ≤ 40) ∧ 20 < configuredSide oneEmpty ∧ oneEmpty.cell 20 20 = 0 ∧
      ∀ r' < configuredSide oneEmpty, ∀ c' < configuredSide oneEmpty, r' < 20 ∨ (r' = 20 ∧ c' < 20) →
        oneEmpty.cell r' c' ≠ 0 ∧ oneEmpty.cell r' c' ≠ 6 ∧ oneEmpty.cell r' c' ≠ 7 := by
  have hn : configuredSide oneEmpty = 21 := by decide
  refine ⟨by decide, by decide, by rw [cells_oneEmpty 20 20 (by omega) (by omega)]; rfl, fun r hr c hc h => ?_⟩
  rw [cells_oneEmpty r c (by omega) (by omega), if_neg (by omega)]
  decide

/-- `allBackground` after other commands: the second state, and a state with arbitrary penalty registers. -/
theorem witness_SelectionIdempotent :
    allBackground.buffersCanonical ∧ MaskReady allBackground ∧
      (State.buffersCanonical { allBackground with maskValid := true, maskSel := 5 } ∧
        MaskReady { allBackground with maskValid := true, maskSel := 5 }) ∧
      ∃ t q : State, exec .masksel allBackground = .next t ∧
        q = { t with
          done := false, seq := .exec 0x0000FF40 0
          pen1 := q.pen1, pen2 := q.pen2, pen3 := q.pen3, pen4 := q.pen4, penTotal := q.penTotal } ∧
        q.pen1 = 7 := by
  refine ⟨allBackground_canonical, allBackground_maskReady,
    ⟨allBackground_canonical, allBackground_maskReady.version, allBackground_maskReady.colours⟩, ?_⟩
  rw [exec, execMasksel, State.finish.eq_def]
  split
  · rename_i t _
    exact ⟨_, { t.complete with done := false, seq := .exec 0x0000FF40 0, pen1 := 7 }, rfl, rfl, rfl⟩
  · exact ⟨_, { State.raise _ _ _ with done := false, seq := .exec 0x0000FF40 0, pen1 := 7 }, rfl, rfl, rfl⟩

theorem witness_VersionFaults :
    State.reset.version = 0 ∧ 41 ≤ { hello with version := 41 }.version.toNat ∧ 41 ≤ { hello with version := 63 }.version.toNat ∧
      (running 0 State.reset).seq = .exec (encode .run) 0 := by
  decide

theorem witness_CommandEndsOneOfTwoWays :
    exec .nop hello = .next { hello with done := true, seq := .idle } ∧ Instr.nop ≠ .run ∧
      ∃ t, exec .run (running 1 hello) = .next t := by
  refine ⟨rfl, by decide, ?_⟩
  rw [exec, execRun]
  split
  · exact ⟨_, rfl⟩
  · split <;> exact ⟨_, rfl⟩

theorem witness_RunStageIsItsCommand :
    (running 4 hello).seq = .exec (encode .run) 4 ∧ (running 4 hello).done = false ∧ (running 4 hello).fault = FaultReg.zero ∧
      stageCommands[(4 : Fin 5).val]? = some .masksel := by
  decide

theorem witness_RunStageCompletes_pack : stageReady 0 (running 0 hello) :=
  ⟨.alphanumeric, ⟨by decide, rfl, by decide, by decide +kernel, by decide +kernel, by decide +kernel, by decide +kernel⟩⟩
theorem witness_RunStageCompletes_interleave : stageReady 1 (running 1 packed) :=
  ⟨by decide, rfl, by decide +kernel, by decide +kernel⟩
theorem witness_RunStageCompletes_funcpat : stageReady 2 (running 2 hello) := ⟨by decide, by decide +kernel⟩
theorem witness_RunStageCompletes_place : stageReady 3 (running 3 oneEmpty) :=
  ⟨by decide, rfl, oneEmpty_count⟩
theorem witness_RunStageCompletes_masksel : stageReady 4 (running 4 allBackground) :=
  ⟨by decide, allBackground_maskReady.colours⟩

theorem witness_RunEquivalence : hello.ready := ⟨rfl, rfl⟩

/-- The same inputs over another earlier state. -/
theorem witness_RunDependsOnInputsOnly :
    hello.ready ∧ packed.ready ∧ hello.buffersCanonical ∧ packed.buffersCanonical ∧ hello.params = packed.params ∧
      hello.msgLen = packed.msgLen ∧ (∀ i, i < hello.msgLen.toNat → hello.msgByte i = packed.msgByte i) ∧
      ∃ t, Sys2Proof.core.run 6 { { hello with version := 0 } with inputs := issueRun } = .next t := by
  exact ⟨⟨rfl, rfl⟩, ⟨rfl, rfl⟩, hello_canonical, witness_InterleaveCompletes.1, rfl, rfl, fun _ _ => rfl, ⟨_, rfl⟩⟩

/-- The default REFDATA, and rule R210 for version 1: 208 Empty cells, the stream length of every level. -/
theorem witness_RunCompletesWhenPackDoes :
    hello.ready ∧ hello.buffersCanonical ∧ PackReady hello .alphanumeric ∧ hello.params.refdata = defaultRefData ∧
      FuncpatReady hello ∧
      configuredStreamLength hello ≤ 8 * 3707 ∧
      emptyCount (configuredSide hello) (functionPatterns hello.versionNat (refAlignmentPairs hello.params.refdata hello.versionNat)) =
        configuredStreamLength hello :=
  ⟨⟨rfl, rfl⟩, hello_canonical, hello_packReady, rfl, hello_funcpatReady, by decide +kernel, by decide +kernel⟩

/-- The invariants hold in a state with a packed message and no stream. -/
theorem packed_inv : packed.Inv where
  canonical := witness_InterleaveCompletes.1
  handshake := ⟨by decide, by decide, by decide, by decide, fun w k h => by cases h⟩
  generator := by unfold State.generatorCoherent; decide +kernel
  codewords := fun _ => ⟨by decide, ⟨packed.dcw.map (·.2), 74⟩, by decide +kernel⟩
  stream := fun h => by cases h

theorem witness_StepKeepsHandshake :
    packed.buffersCanonical ∧ packed.Handshake ∧ packed.generatorCoherent ∧ step packed = .next packed :=
  ⟨packed_inv.canonical, packed_inv.handshake, packed_inv.generator, rfl⟩

theorem witness_StepKeepsValidity : packed.Inv ∧ step packed = .next packed := ⟨packed_inv, rfl⟩

end Sys2Proof.Tests
end

/-! Every command and every step has a next state (00_scope.md rule R10): the equations of RUN, of the sequencer and of the
step by case, and from them that none of the three stops. -/

namespace Sys2Proof.Machine

/-! ### RUN by the end of its stage -/

/-- RUN whose stage faults takes that fault under the stage's opcode (rule R252). -/
theorem execRun_of_error {s : State} {r : Raised} (h : stageEffect s.seq.stage s = .error r) :
    execRun s = .next (s.raise (stageOpcode s.seq.stage).code r) := by
  rw [execRun, h]

/-- RUN whose stage completes goes on to the next stage, or completes itself after the last one (rule R252). -/
theorem execRun_of_ok {s t : State} (h : stageEffect s.seq.stage s = .ok t) :
    execRun s = .next (if s.seq.stage = 4 then t.complete
      else { t with seq := .exec s.seq.word (s.seq.stage + 1) }) := by
  rw [execRun, h]
  exact (apply_ite Host.Outcome.next _ _ _).symm

theorem execRun_total (s : State) : ∃ t, execRun s = .next t := by
  cases h : stageEffect s.seq.stage s with
  | error r => exact ⟨_, execRun_of_error h⟩
  | ok t => exact ⟨_, execRun_of_ok h⟩

/-- Every command in every state has a next state: RUN by its stage, every other one by `State.finish`. -/
theorem exec_total (i : Instr) (s : State) : ∃ t, exec i s = .next t := by
  by_cases hrun : i = .run
  · subst hrun
    exact execRun_total s
  · rw [exec_eq_finish i s hrun]
    exact s.finish_total i.opcode.code (effectOf i s)

/-! ### The sequencer's step by what it executes -/

theorem sequencerStep_of_idle {s : State} (h : s.seq = .idle) : s.sequencerStep = .next s := by
  rw [State.sequencerStep, h]

theorem sequencerStep_of_illegal {s : State} {w : Word} {stage : Fin 5} {why : IllegalWord}
    (h : s.seq = .exec w stage) (hw : decode w = .error why) : s.sequencerStep = .next (s.raiseIllegal w why) := by
  simp only [State.sequencerStep, h, hw]

theorem sequencerStep_of_decode {s : State} {w : Word} {stage : Fin 5} {i : Instr}
    (h : s.seq = .exec w stage) (hw : decode w = .ok i) : s.sequencerStep = exec i s := by
  simp only [State.sequencerStep, h, hw]

theorem sequencerStep_total (s : State) : ∃ t, s.sequencerStep = .next t := by
  cases h : s.seq with
  | idle => exact ⟨_, sequencerStep_of_idle h⟩
  | exec w stage =>
    cases hw : decode w with
    | error why => exact ⟨_, sequencerStep_of_illegal h hw⟩
    | ok i =>
      rw [sequencerStep_of_decode h hw]
      exact exec_total i s

/-! ### The step by its next act -/

theorem step_of_no_input {s : State} (h : s.inputs = []) : step s = s.sequencerStep := by
  rw [step, State.nextStep, h]

theorem step_of_input {s : State} {x : Input} {rest : List Input} (h : s.inputs = x :: rest) :
    step s = State.act { s with inputs := rest } x := by
  rw [step, State.nextStep, h]

theorem act_total (s : State) (x : Input) : ∃ t, s.act x = .next t := by
  cases x with
  | access a => exact ⟨s.access a, rfl⟩
  | sequencer => exact sequencerStep_total s
  | reset => exact ⟨s.afterReset, rfl⟩

theorem step_total (s : State) : ∃ t, step s = .next t := by
  cases h : s.inputs with
  | nil =>
    rw [step_of_no_input h]
    exact sequencerStep_total s
  | cons x rest =>
    rw [step_of_input h]
    exact act_total _ x

/-- Settles O6: a step is an act of the outside world or the sequencer's, and the sequencer's ends in a fault or runs a
command, which always ends. -/
theorem everyStepAnswersNext : Obligations.EveryStepAnswersNext :=
  ⟨step_total, exec_total⟩

end Sys2Proof.Machine

/-! The host bus (20_memory.md): where an address lies, what each kind of access does there, and how the registers and the
window bytes read and take writes. -/

namespace Sys2Proof.Machine

/-! ### Where an address lies (rule R60) -/

/-- The bytes of the address space that a window takes, backed or not (rule R60). -/
def Window.span : Window → Nat
  | .msg => 0x2000
  | .dcw => 0x1000
  | .stream => 0x1000
  | .rsbuf => 0x100
  | .rsec => 0x20
  | .matrix => 0x8000

/-- The backed sizes in bytes (rules R44 to R49, R60). -/
theorem Window.sizes :
    Window.msg.size = 7089 ∧ Window.dcw.size = 2956 ∧ Window.stream.size = 3707 ∧ Window.rsbuf.size = 256 ∧
      Window.rsec.size = 32 ∧ Window.matrix.size = 31329 := by
  decide

theorem Window.size_le_span (w : Window) : w.size ≤ w.span := by cases w <;> decide

theorem Window.base_add_span_le (w : Window) : w.base + w.span ≤ 2 ^ 16 := by cases w <;> decide

theorem Window.four_dvd_base (w : Window) : 4 ∣ w.base := by cases w <;> decide

theorem Window.four_dvd_span (w : Window) : 4 ∣ w.span := by cases w <;> decide

theorem locate_of_lt {a : Addr} (h : a.toNat < 0x100) : locate a = .register a.toNat := by
  rw [locate, if_pos h]

theorem locate_of_gap {a : Addr} (h : (0x100 ≤ a.toNat ∧ a.toNat < 0x1000) ∨ (0x5120 ≤ a.toNat ∧ a.toNat < 0x8000)) :
    locate a = .unmapped := by
  rcases h with h | h <;> simp (disch := omega) only [locate, if_pos, if_neg]

theorem locate_of_span {a : Addr} {w : Window} {i : Nat} (ha : a.toNat = w.base + i) (hi : i < w.span) :
    locate a = .window w i := by
  cases w <;> simp only [Window.base, Window.span] at ha hi <;>
    simp (disch := omega) only [locate, ha, if_pos, if_neg, Nat.add_sub_cancel_left]

/-- Every address is in the register block, in one of the two gaps, or in a window. -/
theorem address_cases (a : Addr) :
    a.toNat < 0x100 ∨ ((0x100 ≤ a.toNat ∧ a.toNat < 0x1000) ∨ (0x5120 ≤ a.toNat ∧ a.toNat < 0x8000)) ∨
      ∃ w i, a.toNat = Window.base w + i ∧ i < w.span := by
  by_contra h
  simp only [not_or, not_exists] at h
  obtain ⟨hreg, hgap, hwindow⟩ := h
  have outside : ∀ w : Window, ¬(w.base ≤ a.toNat ∧ a.toNat < w.base + w.span) := fun w hw =>
    hwindow w (a.toNat - w.base) (by omega)
  have hmsg := outside .msg
  have hdcw := outside .dcw
  have hstream := outside .stream
  have hrsbuf := outside .rsbuf
  have hrsec := outside .rsec
  have hmatrix := outside .matrix
  simp only [Window.base, Window.span] at hmsg hdcw hstream hrsbuf hrsec hmatrix
  omega

theorem locate_eq_register_iff {a : Addr} {n : Nat} : locate a = .register n ↔ a.toNat = n ∧ n < 0x100 := by
  refine ⟨fun hl => ?_, fun ⟨ha, hn⟩ => ha ▸ locate_of_lt (ha ▸ hn)⟩
  obtain h | h | ⟨w, i, ha, hi⟩ := address_cases a
  · rw [locate_of_lt h] at hl
    cases hl
    exact ⟨rfl, h⟩
  · rw [locate_of_gap h] at hl
    cases hl
  · rw [locate_of_span ha hi] at hl
    cases hl

theorem locate_eq_unmapped_iff {a : Addr} :
    locate a = .unmapped ↔ (0x100 ≤ a.toNat ∧ a.toNat < 0x1000) ∨ (0x5120 ≤ a.toNat ∧ a.toNat < 0x8000) := by
  refine ⟨fun hl => ?_, locate_of_gap⟩
  obtain h | h | ⟨w, i, ha, hi⟩ := address_cases a
  · rw [locate_of_lt h] at hl
    cases hl
  · exact h
  · rw [locate_of_span ha hi] at hl
    cases hl

theorem locate_eq_window_iff {a : Addr} {w : Window} {i : Nat} :
    locate a = .window w i ↔ a.toNat = w.base + i ∧ i < w.span := by
  refine ⟨fun hl => ?_, fun ⟨ha, hi⟩ => locate_of_span ha hi⟩
  obtain h | h | ⟨w', i', ha, hi⟩ := address_cases a
  · rw [locate_of_lt h] at hl
    cases hl
  · rw [locate_of_gap h] at hl
    cases hl
  · rw [locate_of_span ha hi] at hl
    cases hl
    exact ⟨ha, hi⟩

/-- The four bytes of an aligned word do not wrap around the address space. -/
theorem toNat_add_of_aligned {a k : Addr} (h4 : a.toNat % 4 = 0) (hk : k.toNat < 4) :
    (a + k).toNat = a.toNat + k.toNat := by
  rw [BitVec.toNat_add]
  omega

/-- The four bytes of an aligned word lie in one window. -/
theorem locate_add_of_window {a k : Addr} {w : Window} {i : Nat} (hl : locate a = .window w i) (h4 : a.toNat % 4 = 0)
    (hk : k.toNat < 4) : locate (a + k) = .window w (i + k.toNat) := by
  obtain ⟨ha, hi⟩ := locate_eq_window_iff.1 hl
  have hbase := w.four_dvd_base
  have hspan := w.four_dvd_span
  rw [locate_eq_window_iff, toNat_add_of_aligned h4 hk]
  omega

/-- The four bytes of an aligned word are all unmapped when the first is. -/
theorem locate_add_of_unmapped {a k : Addr} (hl : locate a = .unmapped) (h4 : a.toNat % 4 = 0) (hk : k.toNat < 4) :
    locate (a + k) = .unmapped := by
  rw [locate_eq_unmapped_iff] at hl ⊢
  rw [toNat_add_of_aligned h4 hk]
  omega

/-- The windows lie next to each other from MSG to RSEC, and MATRIX above the second gap. -/
theorem exists_window_of_range {a : Addr} (ha : (0x1000 ≤ a.toNat ∧ a.toNat < 0x5120) ∨ 0x8000 ≤ a.toNat) :
    ∃ w i, locate a = .window w i := by
  cases hl : locate a with
  | register n =>
    have := locate_eq_register_iff.1 hl
    omega
  | unmapped =>
    have := locate_eq_unmapped_iff.1 hl
    omega
  | window w i => exact ⟨w, i, rfl⟩

theorem locate_windowAddress (w : Window) {i : Nat} (hi : i < w.span) :
    locate (BitVec.ofNat 16 (w.base + i)) = .window w i := by
  have hspan := w.base_add_span_le
  rw [locate_eq_window_iff, BitVec.toNat_ofNat]
  omega

theorem locate_ne_register {a : Addr} (ha : 0x100 ≤ a.toNat) (n : Nat) : locate a ≠ .register n := fun hl => by
  have := locate_eq_register_iff.1 hl
  omega

/-- A window byte the host may write is a backed byte of a writable window (rules R60, R65). -/
theorem hostStorable_iff_of_window {a : Addr} {w : Window} {i : Nat} (hl : locate a = .window w i) :
    hostStorable a ↔ w.writable = true ∧ i < w.size := by
  obtain ⟨ha, hi⟩ := locate_eq_window_iff.1 hl
  rw [hostStorable, msgBacked, ha]
  cases w <;> simp only [Window.span] at hi <;>
    simp only [Window.base, Window.writable, Window.sizes, true_and, Bool.false_eq_true, false_and, iff_false] <;> omega

/-- The bits rule R297 leaves unspecified, by address and by window offset. -/
theorem busyFree_of_window {a : Addr} {w : Window} {i : Nat} (hl : locate a = .window w i) :
    busyFree a = w.freeBits i := by
  obtain ⟨ha, hi⟩ := locate_eq_window_iff.1 hl
  rcases Nat.lt_or_ge i w.size with h | h
  · rw [Window.freeBits, if_pos h]
    cases w <;> simp only [Window.sizes] at h <;>
      simp (disch := omega) only [busyFree, msgBacked, ha, Window.base, if_pos, if_neg, reduceCtorEq, if_true, if_false]
  · have hunbacked : ¬(msgBacked a ∨ (0x3000 ≤ a.toNat ∧ a.toNat ≤ 0x3B8B) ∨ (0x4000 ≤ a.toNat ∧ a.toNat ≤ 0x4E7A) ∨
        (0x5000 ≤ a.toNat ∧ a.toNat ≤ 0x511F)) ∧ ¬(0x8000 ≤ a.toNat ∧ a.toNat ≤ 0xFA60) := by
      rw [msgBacked, ha]
      cases w <;> simp only [Window.span, Window.sizes] at hi h <;> simp only [Window.base] <;> omega
    rw [Window.freeBits, if_neg (Nat.not_lt.2 h), busyFree, if_neg hunbacked.1, if_neg hunbacked.2]

/-! ### What an access does, by where its address lies (rules R61 to R64, R297) -/

section
variable (s : State) {a : Addr} {w : Window} {i n : Nat}

theorem access_read8_of_register (hl : locate a = .register n) : s.access (.read8 a) = s.replyBusError := by
  simp only [State.access, State.hostRead8, hl]

theorem access_read8_of_unmapped (hl : locate a = .unmapped) : s.access (.read8 a) = s.replyOk 0 := by
  simp only [State.access, State.hostRead8, hl]

theorem access_read8_of_window (hl : locate a = .window w i) :
    s.access (.read8 a) =
      if s.busy then s.replyDraw ((w.freeBits i).zeroExtend 32) else s.replyOk ((s.windowRead w i).zeroExtend 32) := by
  simp only [State.access, State.hostRead8, hl]

theorem access_write8_of_register (v : Byte) (hl : locate a = .register n) :
    s.access (.write8 a v) = s.replyBusError := by
  simp only [State.access, State.hostWrite8, hl]

theorem access_write8_of_unmapped (v : Byte) (hl : locate a = .unmapped) : s.access (.write8 a v) = s.replyOk 0 := by
  simp only [State.access, State.hostWrite8, hl]

theorem access_write8_of_window (v : Byte) (hl : locate a = .window w i) :
    s.access (.write8 a v) = (s.writeWindow w [(i, v)]).replyOk 0 := by
  simp only [State.access, State.hostWrite8, hl]

theorem access_read32_of_misaligned (h4 : a.toNat % 4 ≠ 0) : s.access (.read32 a) = s.replyBusError := by
  simp [State.access, State.hostRead32, aligned4, h4]

theorem access_read32_of_register (h4 : a.toNat % 4 = 0) (hl : locate a = .register n) :
    s.access (.read32 a) = s.hostReadReg n := by
  simp [State.access, State.hostRead32, aligned4, h4, hl]

theorem access_read32_of_unmapped (h4 : a.toNat % 4 = 0) (hl : locate a = .unmapped) :
    s.access (.read32 a) = s.replyOk 0 := by
  simp [State.access, State.hostRead32, aligned4, h4, hl]

theorem access_read32_of_window (h4 : a.toNat % 4 = 0) (hl : locate a = .window w i) :
    s.access (.read32 a) = if s.busy then s.replyDraw (w.freeBits32 i) else s.replyOk (s.windowRead32 w i) := by
  simp [State.access, State.hostRead32, aligned4, h4, hl]

theorem access_write32_of_misaligned (v : Word) (h4 : a.toNat % 4 ≠ 0) : s.access (.write32 a v) = s.replyBusError := by
  simp [State.access, State.hostWrite32, aligned4, h4]

theorem access_write32_of_register (v : Word) (h4 : a.toNat % 4 = 0) (hl : locate a = .register n) :
    s.access (.write32 a v) = (s.hostWriteReg n v).replyOk 0 := by
  simp [State.access, State.hostWrite32, aligned4, h4, hl]

theorem access_write32_of_unmapped (v : Word) (h4 : a.toNat % 4 = 0) (hl : locate a = .unmapped) :
    s.access (.write32 a v) = s.replyOk 0 := by
  simp [State.access, State.hostWrite32, aligned4, h4, hl]

theorem access_write32_of_window (v : Word) (h4 : a.toNat % 4 = 0) (hl : locate a = .window w i) :
    s.access (.write32 a v) = (s.writeWindow w (writesFrom i (wordBytes v))).replyOk 0 := by
  simp [State.access, State.hostWrite32, aligned4, h4, hl]

end

/-! ### What a read leaves unchanged (rule R67) -/

/-- A read of the register block answers with a value or, where rule R297 says so, with a free value. -/
theorem hostReadReg_cases (s : State) (n : Nat) :
    (∃ d, s.hostReadReg n = s.replyOk d) ∨ ∃ free, s.hostReadReg n = s.replyDraw free := by
  unfold State.hostReadReg
  cases Reg.ofOffset n with
  | none => exact .inl ⟨0, rfl⟩
  | some r =>
    dsimp only
    split
    · exact .inr ⟨_, rfl⟩
    · exact .inl ⟨_, rfl⟩

theorem access_read8_frame (s : State) (a : Addr) :
    ∃ reply draws, s.access (.read8 a) = { s with reply := reply, draws := draws } := by
  cases hl : locate a with
  | register n => exact ⟨_, _, access_read8_of_register s hl⟩
  | unmapped => exact ⟨_, _, access_read8_of_unmapped s hl⟩
  | window w i =>
    rw [access_read8_of_window s hl]
    cases s.busy <;> exact ⟨_, _, rfl⟩

theorem access_read32_frame (s : State) (a : Addr) :
    ∃ reply draws, s.access (.read32 a) = { s with reply := reply, draws := draws } := by
  by_cases h4 : a.toNat % 4 = 0
  · cases hl : locate a with
    | register n =>
      rw [access_read32_of_register s h4 hl]
      obtain ⟨d, hd⟩ | ⟨free, hd⟩ := hostReadReg_cases s n
      · exact ⟨_, _, hd⟩
      · exact ⟨_, _, hd⟩
    | unmapped => exact ⟨_, _, access_read32_of_unmapped s h4 hl⟩
    | window w i =>
      rw [access_read32_of_window s h4 hl]
      cases s.busy <;> exact ⟨_, _, rfl⟩
  · exact ⟨_, _, access_read32_of_misaligned s h4⟩

/-! ### The register map (10_state.md section 1) -/

theorem Reg.address_lt (r : Reg) : r.address.toNat < 0x100 := by
  cases r with
  | penMask m => revert m; decide
  | gen j => revert j; decide
  | _ => decide

theorem Reg.address_aligned (r : Reg) : r.address.toNat % 4 = 0 := by
  cases r with
  | penMask m => revert m; decide
  | gen j => revert j; decide
  | _ => rfl

theorem Reg.locate_address (r : Reg) : locate r.address = .register r.address.toNat :=
  locate_eq_register_iff.2 ⟨rfl, r.address_lt⟩

/-- The register at a register's address is that register. -/
theorem Reg.ofOffset_address (r : Reg) : Reg.ofOffset r.address.toNat = some r := by
  cases r with
  | penMask m => revert m; decide
  | gen j => revert j; decide
  | _ => rfl

/-- No register stands at a reserved offset: no line of the map takes it. -/
theorem Reg.ofOffset_reserved {n : Nat} (h4 : n % 4 = 0) (hn : 0x48 ≤ n ∧ n ≤ 0x5C ∨ n = 0xFC) :
    Reg.ofOffset n = none := by
  unfold Reg.ofOffset
  repeat rw [if_neg (by omega)]

theorem Reg.readableWhileBusy_iff (r : Reg) :
    r.readableWhileBusy = true ↔ r ∈ [Reg.id, .ctrl, .status, .fault, .cmd, .cfg, .msgLen, .rsK] := by
  cases r <;> simp [Reg.readableWhileBusy]

section
variable (s : State) (r : Reg)

theorem access_read32_address :
    s.access (.read32 r.address) =
      if s.busy && !r.readableWhileBusy then s.replyDraw r.fieldBits else s.replyOk (s.readReg r) := by
  rw [access_read32_of_register s r.address_aligned r.locate_address]
  simp only [State.hostReadReg, r.ofOffset_address]

theorem access_read32_address_readable (h : s.busy = false ∨ r.readableWhileBusy = true) :
    s.access (.read32 r.address) = s.replyOk (s.readReg r) := by
  rw [access_read32_address, if_neg (by rcases h with h | h <;> simp [h])]

theorem access_write32_address (v : Word) : s.access (.write32 r.address v) = (s.writeReg v r).replyOk 0 := by
  rw [access_write32_of_register s v r.address_aligned r.locate_address]
  simp only [State.hostWriteReg, r.ofOffset_address]

end

/-! ### Fields of registers (rules R21 to R43, R66) -/

/-- A field that stands in the low bits has no bit where a mask has none of its bits. -/
theorem zeroExtend_and_eq_zero {k : Nat} (x : BitVec k) {m : Word} (hm : m.setWidth k = 0) :
    x.zeroExtend 32 &&& m = 0 := by
  apply BitVec.eq_of_getLsbD_eq
  intro i hi
  by_cases hk : i < k
  · have hbit : m.getLsbD i = false := by simpa [hk] using congrArg (BitVec.getLsbD · i) hm
    simp [hbit]
  · simp [BitVec.getLsbD_of_ge x i (by omega)]

/-- Two fields side by side have no bit in a mask when each has none in its part of it. -/
theorem append_and_eq_zero {k n : Nat} {x p : BitVec k} {y q : BitVec n} (hx : x &&& p = 0) (hy : y &&& q = 0) :
    (x ++ y) &&& (p ++ q) = 0 := by
  rw [BitVec.and_append, hx, hy]
  exact BitVec.zero_append_zero

/-- A flag has no bit where a mask lacks its bit. -/
theorem bitAt_and_eq_zero {k : Nat} {m : Word} (hm : bitAt k true &&& m = 0) (b : Bool) : bitAt k b &&& m = 0 := by
  cases b with
  | false => exact BitVec.zero_and
  | true => exact hm

/-- A field of a word is the field of the word masked with bits that hold the field. -/
theorem extractLsb'_and_mask (v : Word) {m : Word} {start len : Nat}
    (hm : m.extractLsb' start len = BitVec.allOnes len) :
    (v &&& m).extractLsb' start len = v.extractLsb' start len := by
  rw [BitVec.extractLsb'_and, hm, BitVec.and_allOnes]

/-- Rule R66: what a register reads lies within its fields; each field is placed by itself. -/
theorem readReg_and_reserved (s : State) (r : Reg) : s.readReg r &&& ~~~r.fieldBits = 0 := by
  cases r with
  | id => exact BitVec.and_zero (x := 0x51520007)
  | cmd => exact BitVec.zero_and
  | pen1 | pen2 | pen3 | pen4 | penTotal => exact BitVec.and_zero
  | penMask m =>
    change s.penMask[m] &&& ~~~0xFFFFFFFF = 0
    exact BitVec.and_zero
  | ctrl => exact bitAt_and_eq_zero (by decide) _
  | status =>
    simp only [State.readReg, State.statusWord, BitVec.and_or_distrib_right]
    repeat rw [bitAt_and_eq_zero (by decide)]
    rfl
  | fault =>
    exact append_and_eq_zero (p := 0#24) (q := (0xF#4) ++ (0#4)) BitVec.and_zero
      (append_and_eq_zero BitVec.zero_and BitVec.and_zero)
  | cfg =>
    exact append_and_eq_zero (p := (0x3FFFF#18) ++ (0#6)) (q := ((3#2) ++ (0#2)) ++ ((3#2) ++ (0#2)))
      (append_and_eq_zero BitVec.zero_and BitVec.and_zero)
      (append_and_eq_zero (append_and_eq_zero BitVec.zero_and BitVec.and_zero)
        (append_and_eq_zero BitVec.zero_and BitVec.and_zero))
  | msgLen | rsK | dbits | dcwCount | streamBits | maskSel | genDeg => exact zeroExtend_and_eq_zero _ (by decide)
  | gen j => exact zeroExtend_and_eq_zero s.gen[j] (m := ~~~0xFF) (by decide)

/-- A write to a register other than CMD does what the write of its fields alone does. -/
theorem writeReg_and_fieldBits (s : State) (v : Word) {r : Reg} (hr : r ≠ .cmd) :
    s.writeReg (v &&& r.fieldBits) r = s.writeReg v r := by
  cases r with
  | cmd => exact absurd rfl hr
  | ctrl => simp [State.writeReg, Reg.fieldBits]
  | status => simp [State.writeReg, State.writeStatus, Reg.fieldBits]
  | cfg =>
    simp only [State.writeReg, State.writeCfg]
    rw [extractLsb'_and_mask v (by decide), extractLsb'_and_mask v (by decide), extractLsb'_and_mask v (by decide)]
  | msgLen =>
    simp only [State.writeReg, State.writeMsgLen]
    rw [extractLsb'_and_mask v (by decide)]
  | rsK =>
    simp only [State.writeReg]
    rw [extractLsb'_and_mask v (by decide)]
  | _ => rfl

/-- Writes to read-only registers are ignored (rule R65). -/
theorem writeReg_readOnly (s : State) (v : Word) {r : Reg} (hr : r.readOnly = true) : s.writeReg v r = s := by
  cases r <;> cases hr <;> rfl

/-! ### Window bytes (rules R60, R63, R65) -/

theorem busy_of_idle {s : State} (h : s.seq = .idle) : s.busy = false := by rw [State.busy, h, Seq.busy]

theorem busy_of_not_idle {s : State} (h : s.seq ≠ .idle) : s.busy = true := by
  rw [State.busy]
  cases hs : s.seq with
  | idle => exact absurd hs h
  | exec => rfl

section
variable (s : State) {a : Addr} {w : Window} {i : Nat}

theorem byteAt_of_window (hl : locate a = .window w i) : s.byteAt a = s.windowRead w i := by
  simp only [State.byteAt, hl]

theorem byteAt_of_unmapped (hl : locate a = .unmapped) : s.byteAt a = 0 := by simp only [State.byteAt, hl]

theorem byteAt_of_register {n : Nat} (hl : locate a = .register n) : s.byteAt a = 0 := by simp only [State.byteAt, hl]

/-- The byte at a window's i-th address is the window's i-th backed byte. -/
theorem byteAt_windowAddress (w : Window) (hi : i < w.size) :
    s.byteAt (BitVec.ofNat 16 (w.base + i)) = s.windowByte w i := by
  rw [byteAt_of_window s (locate_windowAddress w (Nat.lt_of_lt_of_le hi w.size_le_span)), State.windowRead, if_pos hi]

/-- Outside the backed bytes of the windows every address reads 0. -/
theorem byteAt_unbacked (h : ∀ w i, locate a = .window w i → w.size ≤ i) : s.byteAt a = 0 := by
  cases hl : locate a with
  | register n => exact byteAt_of_register s hl
  | unmapped => exact byteAt_of_unmapped s hl
  | window w i => rw [byteAt_of_window s hl, State.windowRead, if_neg (Nat.not_lt.2 (h w i hl))]

theorem windowRead32_eq_byteAt (hl : locate a = .window w i) (h4 : a.toNat % 4 = 0) :
    s.windowRead32 w i = (s.byteAt (a + 3) ++ s.byteAt (a + 2)) ++ (s.byteAt (a + 1) ++ s.byteAt a) := by
  rw [byteAt_of_window s (locate_add_of_window hl h4 (k := 3) (by decide)),
    byteAt_of_window s (locate_add_of_window hl h4 (k := 2) (by decide)),
    byteAt_of_window s (locate_add_of_window hl h4 (k := 1) (by decide)), byteAt_of_window s hl, State.windowRead32]
  rfl

theorem freeBits32_eq_busyFree (hl : locate a = .window w i) (h4 : a.toNat % 4 = 0) :
    w.freeBits32 i = (busyFree (a + 3) ++ busyFree (a + 2)) ++ (busyFree (a + 1) ++ busyFree a) := by
  rw [busyFree_of_window (locate_add_of_window hl h4 (k := 3) (by decide)),
    busyFree_of_window (locate_add_of_window hl h4 (k := 2) (by decide)),
    busyFree_of_window (locate_add_of_window hl h4 (k := 1) (by decide)), busyFree_of_window hl, Window.freeBits32]
  rfl

/-- A write none of whose bytes is a backed byte of a writable window is ignored, busy or not. -/
theorem writeWindow_ignored {us : List (Nat × Byte)} (h : ∀ u ∈ us, ¬(w.writable = true ∧ u.1 < w.size)) :
    s.writeWindow w us = s := by
  rw [State.writeWindow, if_pos]
  cases hw : w.writable with
  | false => rfl
  | true =>
    have hnil : backedWrites w us = [] := List.filter_eq_nil_iff.2 fun u hu => by simpa [hw] using h u hu
    simp [hnil]

end

/-! ### Settled statements -/

/-- Settles O9: an access of either width by the location of its address. -/
theorem busErrors : Obligations.BusErrors := by
  intro s a b w
  refine ⟨fun ha => ?_, fun h4 => ?_, fun ha => ?_, fun h4 => ?_⟩
  · have hl : locate a = .register a.toNat := locate_eq_register_iff.2 ⟨rfl, ha⟩
    exact ⟨access_read8_of_register s hl, access_write8_of_register s b hl⟩
  · exact ⟨access_read32_of_misaligned s h4, access_write32_of_misaligned s w h4⟩
  · cases hl : locate a with
    | register n => exact absurd hl (locate_ne_register ha n)
    | unmapped => rw [access_read8_of_unmapped s hl, access_write8_of_unmapped s b hl]; exact ⟨rfl, rfl⟩
    | window x i =>
      rw [access_read8_of_window s hl, access_write8_of_window s b hl]
      cases s.busy <;> exact ⟨rfl, rfl⟩
  · cases hl : locate a with
    | register n =>
      rw [access_read32_of_register s h4 hl, access_write32_of_register s w h4 hl]
      obtain ⟨d, hd⟩ | ⟨free, hd⟩ := hostReadReg_cases s n <;> rw [hd] <;> exact ⟨rfl, rfl⟩
    | unmapped => rw [access_read32_of_unmapped s h4 hl, access_write32_of_unmapped s w h4 hl]; exact ⟨rfl, rfl⟩
    | window x i =>
      rw [access_read32_of_window s h4 hl, access_write32_of_window s w h4 hl]
      cases s.busy <;> exact ⟨rfl, rfl⟩

/-- Settles O10: a register's value and what a write does to it lie within its fields, and no register stands at a reserved
offset. -/
theorem reservedBitsAndOffsets : Obligations.ReservedBitsAndOffsets := by
  intro s
  refine ⟨readReg_and_reserved s, fun r v v' hr hv => ?_, fun a v h4 ha => ?_⟩
  · rw [access_write32_address, access_write32_address, ← writeReg_and_fieldBits s v hr, hv,
      writeReg_and_fieldBits s v' hr]
  · have hl : locate a = .register a.toNat := locate_eq_register_iff.2 ⟨rfl, by omega⟩
    have hnone : Reg.ofOffset a.toNat = none := Reg.ofOffset_reserved h4 ha
    rw [access_read32_of_register s h4 hl, access_write32_of_register s v h4 hl]
    simp only [State.hostReadReg, State.hostWriteReg, hnone]
    exact ⟨rfl, rfl⟩

/-- Settles O11: an Idle read by the location of its address, and the byte at each window's addresses. -/
theorem windowReads : Obligations.WindowReads := by
  intro s hs
  have hb : s.busy = false := busy_of_idle hs
  refine ⟨fun a ha => ?_, fun a ha h4 => ?_, fun i hi => byteAt_windowAddress s .msg hi,
    fun i hi => byteAt_windowAddress s .dcw hi, fun i hi => byteAt_windowAddress s .stream hi,
    fun i hi => byteAt_windowAddress s .rsbuf hi, fun i hi => byteAt_windowAddress s .rsec hi,
    fun r hr c hc => ?_, fun a ha => ?_⟩
  · cases hl : locate a with
    | register n => exact absurd hl (locate_ne_register ha n)
    | unmapped => rw [access_read8_of_unmapped s hl, byteAt_of_unmapped s hl]; rfl
    | window w i => rw [access_read8_of_window s hl, byteAt_of_window s hl, hb]; rfl
  · cases hl : locate a with
    | register n => exact absurd hl (locate_ne_register ha n)
    | unmapped =>
      rw [access_read32_of_unmapped s h4 hl, byteAt_of_unmapped s (locate_add_of_unmapped hl h4 (k := 3) (by decide)),
        byteAt_of_unmapped s (locate_add_of_unmapped hl h4 (k := 2) (by decide)),
        byteAt_of_unmapped s (locate_add_of_unmapped hl h4 (k := 1) (by decide)), byteAt_of_unmapped s hl]
      rfl
    | window w i => rw [access_read32_of_window s h4 hl, ← windowRead32_eq_byteAt s hl h4, hb]; rfl
  · rw [Nat.add_assoc]
    exact byteAt_windowAddress s .matrix (cellIndex_lt hr hc)
  · refine byteAt_unbacked s fun w i hl => ?_
    obtain ⟨hai, -⟩ := locate_eq_window_iff.1 hl
    cases w <;> simp only [Window.base, Window.sizes] at hai ⊢ <;> omega

/-- Settles O13: none of the bytes written is a backed byte of a writable window. -/
theorem readOnlyWritesIgnored : Obligations.ReadOnlyWritesIgnored := by
  intro s
  refine ⟨fun r v hr => ?_, fun a v ha hns => ?_, fun a v ha h4 hns => ?_, fun hs => ?_⟩
  · rw [access_write32_address, writeReg_readOnly s v hr]; rfl
  · cases hl : locate a with
    | register n => exact absurd hl (locate_ne_register ha n)
    | unmapped => exact access_write8_of_unmapped s v hl
    | window w i =>
      rw [hostStorable_iff_of_window hl] at hns
      rw [access_write8_of_window s v hl, writeWindow_ignored s (by simpa using hns)]
      rfl
  · cases hl : locate a with
    | register n => exact absurd hl (locate_ne_register ha n)
    | unmapped => exact access_write32_of_unmapped s v h4 hl
    | window w i =>
      rw [hostStorable_iff_of_window hl] at hns
      have hall : ∀ u ∈ writesFrom i (wordBytes v), ¬(w.writable = true ∧ u.1 < w.size) := fun u hu hback =>
        hns ⟨hback.1, Nat.lt_of_le_of_lt (Memory.mem_writesFrom hu).1 hback.2⟩
      rw [access_write32_of_window s v h4 hl, writeWindow_ignored s hall]
      rfl
  · exact access_read32_address_readable s .cmd (.inl (busy_of_idle hs))

/-- Settles O15: a read by the location of its address, Idle and BUSY. -/
theorem hostReads : Obligations.HostReads := by
  intro s
  refine ⟨fun hs r => access_read32_address_readable s r (.inl (busy_of_idle hs)), access_read8_frame s,
    access_read32_frame s, fun hs => ?_⟩
  have hb : s.busy = true := busy_of_not_idle hs
  refine ⟨fun r hr => access_read32_address_readable s r (.inr (r.readableWhileBusy_iff.2 ?_)),
    access_read32_address_readable s .cmd (.inr rfl), fun r hr => ?_, fun a ha h4 => ?_, fun a ha => ?_, fun a ha => ?_⟩
  · simp only [List.mem_cons] at hr ⊢
    tauto
  · have hfree : r.readableWhileBusy = false := by simpa only [Bool.not_eq_true, ← r.readableWhileBusy_iff] using hr
    rw [access_read32_address, hb, hfree]
    rfl
  · obtain ⟨w, i, hl⟩ := exists_window_of_range ha
    rw [access_read32_of_window s h4 hl, if_pos hb, freeBits32_eq_busyFree hl h4]
    rfl
  · obtain ⟨w, i, hl⟩ := exists_window_of_range ha
    rw [access_read8_of_window s hl, if_pos hb, busyFree_of_window hl]
    rfl
  · have hl : locate a = .unmapped := locate_eq_unmapped_iff.2 ha
    exact ⟨access_read8_of_unmapped s hl, fun h4 => access_read32_of_unmapped s h4 hl⟩

/-- Settles O5: the step by its next act. -/
theorem stepTakesNextAct : Obligations.StepTakesNextAct := fun s rest =>
  ⟨fun _ h => step_of_input h, fun _ h => step_of_input h,
    fun hidle h => (step_of_no_input h).trans (sequencerStep_of_idle hidle),
    fun hidle h => (step_of_input h).trans (sequencerStep_of_idle (s := { s with inputs := rest }) hidle)⟩

end Sys2Proof.Machine

/-! The command word (30_encoding.md): decoding and encoding are inverse to each other, rule R111 read on the numbers of the
fields names the fault of an accepted word, and an illegal VERSION faults every command that uses it. -/

namespace Sys2Proof.Machine

/-! ### A word and its fields (rule R100) -/

theorem opField_toNat (w : Word) : (opField w).toNat = w.toNat % 256 := by
  rw [opField, BitVec.extractLsb'_toNat, Nat.shiftRight_zero]

theorem argField_toNat (w : Word) : (argField w).toNat = w.toNat / 256 % 256 := by
  rw [argField, BitVec.extractLsb'_toNat, Nat.shiftRight_eq_div_pow]

theorem rsvField_toNat (w : Word) : (rsvField w).toNat = w.toNat / 65536 := by
  have := w.isLt
  rw [rsvField, BitVec.extractLsb'_toNat, Nat.shiftRight_eq_div_pow]
  omega

/-- A word is its three fields in order. -/
theorem append_fields (w : Word) : (rsvField w ++ argField w) ++ opField w = w := by
  refine BitVec.eq_of_toNat_eq ?_
  rw [BitVec.toNat_append, BitVec.toNat_append, ← Nat.shiftLeft_add_eq_or_of_lt (opField w).isLt,
    ← Nat.shiftLeft_add_eq_or_of_lt (argField w).isLt, opField_toNat, argField_toNat, rsvField_toNat,
    Nat.shiftLeft_eq, Nat.shiftLeft_eq]
  omega

/-! ### Opcodes, commands and their arguments (rules R101, R102, R110) -/

/-- An OP field that selects an opcode is that opcode's code. -/
theorem code_of_ofCode {b : Byte} {op : Opcode} (h : Opcode.ofCode b = some op) : op.code = b := by
  simp only [Opcode.ofCode, ite_eq_iff', Option.some.injEq] at h
  grind [Opcode.code]

@[simp] theorem opcode_instr (op : Opcode) (a : Byte) : (op.instr a).opcode = op := by
  cases op <;> rfl

/-- The argument of the command an opcode makes: what it was made from, unless the command takes none. -/
theorem arg_instr {op : Opcode} {a : Byte} (h : op.takesArg = false → a = 0) : (op.instr a).arg = a := by
  cases op with
  | genpoly | rsenc | penalty | maskapply => rfl
  | nop | clear | pack | interleave | funcpat | place | masksel | run => exact (h rfl).symm

@[simp] theorem instr_opcode_arg (i : Instr) : i.opcode.instr i.arg = i := by
  cases i <;> rfl

/-- The encoding of a command without argument never meets item (3) of rule R111. -/
theorem not_noArgument_and_arg_ne_zero (i : Instr) : ¬(i.opcode.takesArg = false ∧ i.arg ≠ 0) := by
  rintro ⟨hnone, hne⟩
  cases i with
  | genpoly | rsenc | penalty | maskapply => cases hnone
  | nop | clear | pack | interleave | funcpat | place | masksel | run => exact hne rfl

/-! ### decode, by the reasons of rule R111 -/

theorem decode_of_unassigned {w : Word} (h : Opcode.ofCode (opField w) = none) :
    decode w = .error .unassignedOpcode := by
  rw [decode, h]

/-- A word of an assigned opcode: items (2) to (4) of rule R111 in order. -/
theorem decode_of_assigned {w : Word} {op : Opcode} (h : Opcode.ofCode (opField w) = some op) :
    decode w = if rsvField w ≠ 0 then .error .reservedNonzero
      else if op.takesArg = false ∧ argField w ≠ 0 then .error .argumentNotZero
      else if (op.instr (argField w)).wf = false then .error .argumentOutOfRange
      else .ok (op.instr (argField w)) := by
  rw [decode, h]

theorem decode_encode {i : Instr} (h : i.wf = true) : decode (encode i) = .ok i := by
  obtain ⟨hop, harg, hrsv, hcode⟩ := Laws.EncodedFields.statement_of_opcode i
  rw [decode_of_assigned (hop ▸ hcode), hrsv, harg, if_neg (by simp), if_neg (not_noArgument_and_arg_ne_zero i),
    instr_opcode_arg, if_neg (by simp [h])]

theorem encode_of_decode {w : Word} {i : Instr} (h : decode w = .ok i) : i.wf = true ∧ encode i = w := by
  cases hop : Opcode.ofCode (opField w) with
  | none => cases (decode_of_unassigned hop).symm.trans h
  | some op =>
    rw [decode_of_assigned hop] at h
    split at h
    · cases h
    next hrsv =>
    split at h
    · cases h
    next harg =>
    split at h
    · cases h
    next hwf =>
    cases h
    refine ⟨by simpa using hwf, ?_⟩
    have harg' : op.takesArg = false → argField w = 0 := by tauto
    rw [encode, arg_instr harg', opcode_instr, code_of_ofCode hop]
    have hw := append_fields w
    rwa [not_not.1 hrsv] at hw

theorem decode_eq_ok_iff {w : Word} {i : Instr} : decode w = .ok i ↔ i.wf = true ∧ encode i = w :=
  ⟨encode_of_decode, fun ⟨hwf, hw⟩ => hw ▸ decode_encode hwf⟩

/-- Settles O2: decoding inverts encoding on well-formed commands, and a decoded word is rebuilt from its fields. -/
theorem decodeEncodeAgree : Obligations.DecodeEncodeAgree := fun _ _ => decode_eq_ok_iff

/-- Settles O1: each word is the encoding of its command, so O2 decodes it. -/
theorem decodeTableWords : Obligations.DecodeTableWords := by
  simp only [Obligations.DecodeTableWords, decode_eq_ok_iff]
  and_intros <;> rfl

/-! ### Rule R111 on the numbers of the fields -/

/-- The OP column of rule R110, by number. -/
theorem code_mem_assigned (op : Opcode) :
    op.code.toNat ∈ [0x00, 0x01, 0x10, 0x20, 0x21, 0x22, 0x30, 0x31, 0x40, 0x41, 0x42, 0xF0] := by
  cases op <;> simp [Opcode.code]

theorem ofCode_ne_none_of_mem {b : Byte}
    (h : b.toNat ∈ [0x00, 0x01, 0x10, 0x20, 0x21, 0x22, 0x30, 0x31, 0x40, 0x41, 0x42, 0xF0]) :
    Opcode.ofCode b ≠ none := by
  have hmap : b.toNat ∈ [Opcode.nop, .clear, .pack, .genpoly, .rsenc, .interleave, .funcpat, .place, .penalty, .masksel,
    .maskapply, .run].map (·.code.toNat) := h
  obtain ⟨op, -, hop⟩ := List.mem_map.1 hmap
  rw [← BitVec.eq_of_toNat_eq hop, Laws.EncodedFields.ofCode_code]
  exact Option.some_ne_none op

theorem takesArg_eq_false_iff (op : Opcode) : op.takesArg = false ↔ op.code.toNat ∉ [0x20, 0x21, 0x40, 0x42] := by
  cases op <;> simp [Opcode.takesArg, Opcode.code]

theorem code_eq_rsenc_iff (op : Opcode) : op.code.toNat = 0x21 ↔ op = .rsenc := by
  cases op <;> simp [Opcode.code]

/-- Item (4) of rule R111: the arguments outside the range of their command. -/
theorem wf_instr_eq_false_iff (op : Opcode) (a : Byte) : (op.instr a).wf = false ↔
    ((op.code.toNat = 0x20 ∨ op.code.toNat = 0x21) ∧ (a.toNat = 0 ∨ 30 < a.toNat)) ∨
      (op.code.toNat = 0x40 ∧ 8 ≤ a.toNat ∧ a.toNat ≤ 0xFE) ∨ (op.code.toNat = 0x42 ∧ 7 < a.toNat) := by
  have hlt := a.isLt
  have hff : a = 0xFF ↔ a.toNat = 255 := BitVec.toNat_inj.symm
  rw [← Bool.not_eq_true]
  cases op with
  | genpoly | rsenc =>
    simp only [Opcode.instr, Instr.wf, ecCountLegal_iff]
    simp [Opcode.code]
    omega
  | penalty =>
    simp only [Opcode.instr, Instr.wf, penaltyArgLegal_iff, hff]
    simp [Opcode.code]
    omega
  | maskapply => simp [Opcode.instr, Instr.wf, Opcode.code, maskIndexLegal_iff]
  | nop | clear | pack | interleave | funcpat | place | masksel | run => simp [Opcode.instr, Instr.wf, Opcode.code]

/-- Item (1) of rule R111. -/
theorem illegalInfo_of_unassigned (k : Nat) {w : Word} (h : Opcode.ofCode (opField w) = none) :
    illegalInfo k w = some 0 := by
  rw [illegalInfo, ← opField_toNat]
  exact if_pos fun hmem => ofCode_ne_none_of_mem hmem h

/-- Items (2) to (5) of rule R111, read on the opcode and the fields. -/
theorem illegalInfo_of_assigned (k : Nat) {w : Word} {op : Opcode} (h : Opcode.ofCode (opField w) = some op) :
    illegalInfo k w = if rsvField w ≠ 0 then some 1
      else if op.takesArg = false ∧ argField w ≠ 0 then some 2
      else if (op.instr (argField w)).wf = false then some 3
      else if op = .rsenc ∧ 255 < k + (argField w).toNat then some 4
      else none := by
  have hmem := code_mem_assigned op
  simp only [illegalInfo, ← opField_toNat, ← argField_toNat, ← rsvField_toNat, ← code_of_ofCode h]
  rw [if_neg (not_not.2 hmem)]
  simp only [wf_instr_eq_false_iff, takesArg_eq_false_iff, code_eq_rsenc_iff, ← BitVec.toNat_inj, ne_eq]
  rfl

theorem illegalInfo_of_error (k : Nat) {w : Word} {why : IllegalWord} (h : decode w = .error why) :
    illegalInfo k w = some why.info := by
  cases hop : Opcode.ofCode (opField w) with
  | none =>
    cases (decode_of_unassigned hop).symm.trans h
    exact illegalInfo_of_unassigned k hop
  | some op =>
    rw [decode_of_assigned hop] at h
    rw [illegalInfo_of_assigned k hop]
    split_ifs at h ⊢ <;> cases h <;> rfl

/-- A decoded word is illegal only as item (5) of rule R111 says, by RS_K. -/
theorem illegalInfo_of_ok (k : Nat) {w : Word} {i : Instr} (h : decode w = .ok i) :
    illegalInfo k w = if i.opcode = .rsenc ∧ 255 < k + i.arg.toNat then some 4 else none := by
  obtain ⟨hwf, rfl⟩ := encode_of_decode h
  obtain ⟨hop, harg, hrsv, hcode⟩ := Laws.EncodedFields.statement_of_opcode i
  rw [illegalInfo_of_assigned k (hop ▸ hcode), hrsv, harg, if_neg (by simp), if_neg (not_noArgument_and_arg_ne_zero i),
    instr_opcode_arg, if_neg (by simp [hwf])]

/-! ### The sequencer's step on an accepted word (rule R264) -/

/-- RSENC with RS_K + n above 255 takes the fault of item (5) of rule R111. -/
theorem exec_rsenc_of_overflow {s : State} {n : Byte} (hn : ecCountLegal n = true) (h : 255 < s.rsK.toNat + n.toNat) :
    exec (.rsenc n) s = .next (s.raise Opcode.rsenc.code ⟨.illegal, 4⟩) := by
  have he : rsencEffect n s = .error ⟨.illegal, 4⟩ := by
    rw [rsencEffect, if_neg (by simp [hn]), if_pos h]
  rw [exec, execRsenc, he, State.finish_error]

/-- Whatever names the fault of the word, the decoder or RSENC's own check, the sequencer's step takes it. -/
theorem sequencerStep_of_illegalInfo {s : State} {w : Word} {stage : Fin 5} {info : BitVec 16}
    (h : s.seq = .exec w stage) (hi : illegalInfo s.rsK.toNat w = some info) :
    s.sequencerStep = .next (s.raise (opField w) ⟨.illegal, info⟩) := by
  cases hw : decode w with
  | error why =>
    cases (illegalInfo_of_error _ hw).symm.trans hi
    exact sequencerStep_of_illegal h hw
  | ok i =>
    rw [illegalInfo_of_ok _ hw] at hi
    split at hi
    case isFalse => cases hi
    next hover =>
    cases hi
    obtain ⟨hwf, rfl⟩ := encode_of_decode hw
    obtain ⟨hop, -⟩ := Laws.EncodedFields.statement_of_opcode i
    rw [sequencerStep_of_decode h hw, hop]
    cases i with
    | rsenc n => exact exec_rsenc_of_overflow hwf hover.2
    | _ => cases hover.1

theorem decode_of_illegalInfo_none {k : Nat} {w : Word} (h : illegalInfo k w = none) : ∃ i, decode w = .ok i := by
  cases hw : decode w with
  | error why => cases (illegalInfo_of_error k hw).symm.trans h
  | ok i => exact ⟨i, rfl⟩

/-- Settles O3: the sequencer's step on the accepted word, with nothing before it and as the next act. -/
theorem illegalWordFaults : Obligations.IllegalWordFaults := by
  intro s w stage h
  refine ⟨fun info hi => ⟨fun hin => ?_, fun rest hin => ?_⟩, fun hnone => ?_⟩
  · exact (step_of_no_input hin).trans (sequencerStep_of_illegalInfo h hi)
  · exact (step_of_input hin).trans (sequencerStep_of_illegalInfo (s := { s with inputs := rest }) h hi)
  · obtain ⟨i, hw⟩ := decode_of_illegalInfo_none hnone
    exact ⟨i, hw, fun hin => (step_of_no_input hin).trans (sequencerStep_of_decode h hw),
      fun rest hin => (step_of_input hin).trans (sequencerStep_of_decode (s := { s with inputs := rest }) h hw)⟩

/-! ### VERSION out of range (rule R106) -/

/-- The commands that use the version (rule R106); RUN uses it through its stages. -/
def usesVersion : Instr → Bool
  | .pack | .interleave | .funcpat | .place | .penalty _ | .masksel | .maskapply _ => true
  | .nop | .clear | .genpoly _ | .rsenc _ | .run => false

section
variable {s : State} (hv : ¬(1 ≤ s.versionNat ∧ s.versionNat ≤ 40))
include hv

/-- The version check comes before every other check but that of the argument. -/
theorem effectOf_of_illegalVersion {i : Instr} (hwf : i.wf = true) (hi : usesVersion i = true) :
    effectOf i s = .error ⟨.config, 1⟩ := by
  cases i with
  | pack => rw [effectOf, packEffect, State.withVersion_illegal _ hv]
  | interleave => rw [effectOf, interleaveEffect, State.withVersion_illegal _ hv]
  | funcpat => rw [effectOf, funcpatEffect, State.withVersion_illegal _ hv]
  | place => rw [effectOf, placeEffect, State.withVersion_illegal _ hv]
  | masksel => rw [effectOf, maskselEffect, State.withVersion_illegal _ hv]
  | penalty m =>
    rw [effectOf, penaltyEffect, if_neg (by simpa [Instr.wf] using hwf), State.withVersion_illegal _ hv]
  | maskapply m =>
    rw [effectOf, maskapplyEffect, if_neg (by simpa [Instr.wf] using hwf), State.withVersion_illegal _ hv]
  | nop | clear | genpoly | rsenc | run => cases hi

theorem exec_of_illegalVersion {i : Instr} (hwf : i.wf = true) (hi : usesVersion i = true) :
    exec i s = .next (s.raise i.opcode.code ⟨.config, 1⟩) := by
  have hrun : i ≠ .run := by
    rintro rfl
    cases hi
  rw [exec_eq_finish i s hrun, effectOf_of_illegalVersion hv hwf hi, State.finish_error]

/-- RUN in its first stage takes PACK's fault. -/
theorem exec_run_of_illegalVersion {w : Word} (h : s.seq = .exec w 0) :
    exec .run s = .next (s.raise Opcode.pack.code ⟨.config, 1⟩) := by
  have hstage : s.seq.stage = 0 := by rw [h, Seq.stage]
  have he : stageEffect s.seq.stage s = .error ⟨.config, 1⟩ := by
    rw [hstage]
    exact effectOf_of_illegalVersion hv (i := .pack) rfl rfl
  rw [exec, execRun_of_error he, hstage]
  rfl

end

/-- Settles O51: the commands that use the version, each with a legal argument, and RUN's first stage. -/
theorem versionFaults : Obligations.VersionFaults := by
  intro s hs
  have hv : ¬(1 ≤ s.versionNat ∧ s.versionNat ≤ 40) := by
    rw [State.versionNat]
    rcases hs with h | h
    · simp [h]
    · omega
  refine ⟨fun i hi => ?_, fun m hm => ?_, fun m hm => ?_, fun w hw => exec_run_of_illegalVersion hv hw⟩
  · have hlegal : i.wf = true ∧ usesVersion i = true := by
      revert i
      simp [Instr.wf, usesVersion]
    exact exec_of_illegalVersion hv hlegal.1 hlegal.2
  · exact exec_of_illegalVersion (i := .penalty m) hv ((penaltyArgLegal_iff m).2 hm) rfl
  · exact exec_of_illegalVersion (i := .maskapply m) hv ((maskIndexLegal_iff m).2 hm) rfl

end Sys2Proof.Machine

/-! What the commands that fill a buffer share: the bytes of a bit string, and the address space after the first bytes of one
window change. -/

namespace Sys2Proof.Machine

/-! ### Bytes of a bit string (rules R7, R184) -/

-- The kernel is waited for here, so that the long evaluations of the tests above are over before the proofs below are
-- elaborated side by side: the threads that wait for an evaluation take most of the memory check.sh allows.
set_option Elab.async false in
/-- A byte is read back from its bit string (rule R7). -/
theorem byteOfBits_bin : ∀ b : Byte, byteOfBits (bin 8 b.toNat) = b := by decide

@[simp] theorem length_bin (w v : Nat) : (bin w v).length = w := by
  induction w with
  | zero => rfl
  | succ w ih => rw [bin, List.length_cons, ih]

theorem byteOfBits_zeroBits (n : Nat) : byteOfBits (zeroBits n) = 0 := by
  have hbit : ∀ t, (zeroBits n).getD t false = false := fun t => by
    rw [zeroBits, List.getD_eq_getElem?_getD, List.getElem?_replicate]
    split <;> rfl
  simp only [byteOfBits, hbit]
  rfl

theorem getElem?_bytesOfBits_zeroBits {n k : Nat} (hk : k < n) (m : Nat) :
    (bytesOfBits n (zeroBits m))[k]? = some 0 := by
  induction n generalizing k m with
  | zero => omega
  | succ n ih =>
    have htake : (zeroBits m).take 8 = zeroBits (min 8 m) := List.take_replicate
    have hdrop : (zeroBits m).drop 8 = zeroBits (m - 8) := List.drop_replicate
    rw [bytesOfBits, htake, hdrop, byteOfBits_zeroBits]
    cases k with
    | zero => rfl
    | succ k => exact ih (by omega) _

/-- The bytes of codewords and zero bits after them: the codewords, then 0, the last byte filled up with zeros. -/
theorem getElem?_bytesOfBits {n k : Nat} (hk : k < n) (bs : List Byte) (m : Nat) :
    (bytesOfBits n (bitsOfBytes bs ++ zeroBits m))[k]? = some (bs.getD k 0) := by
  induction bs generalizing n k with
  | nil => exact getElem?_bytesOfBits_zeroBits hk m
  | cons b bs ih =>
    obtain ⟨n, rfl⟩ := Nat.exists_eq_add_one_of_ne_zero (by omega : n ≠ 0)
    rw [bytesOfBits, bitsOfBytes, List.flatMap_cons, List.append_assoc, List.take_left' (length_bin ..),
      List.drop_left' (length_bin ..), byteOfBits_bin]
    cases k with
    | zero => rfl
    | succ k => exact ih (by omega)

@[simp] theorem length_bytesOfBits (n : Nat) (s : Bits) : (bytesOfBits n s).length = n := by
  induction n generalizing s with
  | zero => rfl
  | succ n ih => rw [bytesOfBits, List.length_cons, ih]

/-! ### A command that writes the first bytes of one window (rule R60) -/

/-- The bytes of the address space when one window's first n bytes change and no other window does. -/
theorem byteAt_of_firstBytes_written {s t : State} {w : Window} {n : Nat} {f : Nat → Byte} (hn : n ≤ w.size)
    (hw : ∀ i, t.windowByte w i = if i < n then f i else s.windowByte w i)
    (hother : ∀ x ≠ w, ∀ i, t.windowByte x i = s.windowByte x i) (a : Addr) :
    t.byteAt a = if w.base ≤ a.toNat ∧ a.toNat < w.base + n then f (a.toNat - w.base) else s.byteAt a := by
  have hspan := w.size_le_span
  split
  · next hin =>
    have hl : locate a = .window w (a.toNat - w.base) := locate_of_span (by omega) (by omega)
    rw [byteAt_of_window t hl, State.windowRead, if_pos (by omega), hw, if_pos (by omega)]
  · next hout =>
    cases hl : locate a with
    | register k => rw [byteAt_of_register t hl, byteAt_of_register s hl]
    | unmapped => rw [byteAt_of_unmapped t hl, byteAt_of_unmapped s hl]
    | window x i =>
      obtain ⟨ha, -⟩ := locate_eq_window_iff.1 hl
      have hsame : t.windowByte x i = s.windowByte x i := by
        by_cases hx : x = w
        · subst hx
          rw [hw, if_neg (by omega)]
        · exact hother x hx i
      rw [byteAt_of_window t hl, byteAt_of_window s hl, State.windowRead, State.windowRead, hsame]

end Sys2Proof.Machine

/-! The generator polynomials (41_reed_solomon.md): none of their coefficients is 0, so every exponent of genpoly is a
logarithm that the field defines and GEN holds it unchanged. -/

namespace Sys2Proof.Machine

/-! ### Multiplication by powers of 2 (rules R160, R161) -/

theorem gfDouble_xor (a b : Byte) : gfDouble (a ^^^ b) = gfDouble a ^^^ gfDouble b := by
  have hmsb : (if (a ^^^ b).msb then 0x1D else 0 : Byte) =
      (if a.msb then 0x1D else 0) ^^^ (if b.msb then 0x1D else 0) := by
    rw [BitVec.msb_xor]
    cases a.msb <;> cases b.msb <;> rfl
  rw [gfDouble, hmsb, BitVec.shiftLeft_xor_distrib, gfDouble, gfDouble]
  ac_rfl

theorem xor_xor_xor_cancel (x y z : Byte) : (x ^^^ y) ^^^ (z ^^^ x) = z ^^^ y := by
  calc
    _ = (x ^^^ x) ^^^ (z ^^^ y) := by ac_rfl
    _ = _ := by rw [BitVec.xor_self, BitVec.zero_xor]

theorem eq_xor_of_xor_eq {x y z : Byte} (h : x ^^^ y = z) : x = z ^^^ y := by
  rw [← h, BitVec.xor_assoc, BitVec.xor_self, BitVec.xor_zero]

/-- Multiplication by 2^k (rule R160): k doublings. -/
def gfScale (k : Nat) (x : Byte) : Byte := gfDouble^[k] x

theorem gfScale_xor (k : Nat) (a b : Byte) : gfScale k (a ^^^ b) = gfScale k a ^^^ gfScale k b :=
  Function.Semiconj₂.iterate (f := gfDouble) (op := (· ^^^ ·)) gfDouble_xor k a b

@[simp] theorem gfScale_zero (k : Nat) : gfScale k 0 = 0 := Function.iterate_fixed (by decide) k

theorem gfScale_gfScale (j k : Nat) (x : Byte) : gfScale j (gfScale k x) = gfScale (j + k) x :=
  (Function.iterate_add_apply gfDouble j k x).symm

theorem gfScale_gfExp (k e : Nat) : gfScale k (gfExp e) = gfExp (e + k) := by
  induction k with
  | zero => rfl
  | succ k ih => rw [gfScale, Function.iterate_succ_apply', ← gfScale, ih, ← Nat.add_assoc, gfExp_succ]

/-- 2 has order 255: below it, two powers of 2 take no element but 0 to the same element. -/
theorem gfScale_ne {j k : Nat} (hjk : j < k) (hk : k < 255) {x : Byte} (hx : x ≠ 0) : gfScale k x ≠ gfScale j x := by
  intro h
  have hlog := congrArg gfLog h
  rw [← gfExp_gfLog x hx, gfScale_gfExp, gfScale_gfExp, gfLog_gfExp, gfLog_gfExp] at hlog
  omega

/-! ### The coefficients (rule R164) -/

/-- The coefficient of x^(n−j) in Π (x − 2^i), i = 0..n−1: multiplying by x − 2^n adds 2^n times the coefficient before. -/
def rootCoeff : Nat → Nat → Byte
  | 0, 0 => 1
  | 0, _ + 1 => 0
  | n + 1, 0 => rootCoeff n 0
  | n + 1, j + 1 => rootCoeff n (j + 1) ^^^ gfScale n (rootCoeff n j)

@[simp] theorem rootCoeff_zero (n : Nat) : rootCoeff n 0 = 1 := by
  induction n with
  | zero => rfl
  | succ n ih => exact ih

theorem rootCoeff_of_lt {n j : Nat} (h : n < j) : rootCoeff n j = 0 := by
  induction n generalizing j with
  | zero =>
    obtain ⟨j, rfl⟩ := Nat.exists_eq_add_one_of_ne_zero (by omega : j ≠ 0)
    rfl
  | succ n ih =>
    obtain ⟨j, rfl⟩ := Nat.exists_eq_add_one_of_ne_zero (by omega : j ≠ 0)
    rw [rootCoeff, ih (by omega), ih (by omega), gfScale_zero]
    rfl

/-- The coefficients are Gaussian binomials: (2^(j+1) − 1)·c_(j+1) = 2^j·(2^(n−j) − 1)·c_j. -/
theorem rootCoeff_ratio (n j : Nat) :
    gfScale (j + 1) (rootCoeff n (j + 1)) ^^^ rootCoeff n (j + 1) =
      gfScale n (rootCoeff n j) ^^^ gfScale j (rootCoeff n j) := by
  induction n generalizing j with
  | zero =>
    cases j with
    | zero => decide
    | succ j => simp only [rootCoeff, gfScale_zero]
  | succ n ih =>
    have hleft : gfScale (j + 1) (rootCoeff (n + 1) (j + 1)) ^^^ rootCoeff (n + 1) (j + 1) =
        gfScale (j + 1 + n) (rootCoeff n j) ^^^ gfScale j (rootCoeff n j) := by
      calc
        _ = (gfScale (j + 1) (rootCoeff n (j + 1)) ^^^ rootCoeff n (j + 1)) ^^^
            (gfScale (j + 1 + n) (rootCoeff n j) ^^^ gfScale n (rootCoeff n j)) := by
          rw [rootCoeff, gfScale_xor, gfScale_gfScale]
          ac_rfl
        _ = _ := by rw [ih, xor_xor_xor_cancel]
    rw [hleft]
    cases j with
    | zero => rw [rootCoeff_zero, rootCoeff_zero, Nat.add_comm]
    | succ i =>
      have hscaled : gfScale (n + 1 + (i + 1)) (rootCoeff n (i + 1)) ^^^ gfScale (n + 1) (rootCoeff n (i + 1)) =
          gfScale (n + 1 + n) (rootCoeff n i) ^^^ gfScale (n + 1 + i) (rootCoeff n i) := by
        have h := congrArg (gfScale (n + 1)) (ih i)
        rwa [gfScale_xor, gfScale_xor, gfScale_gfScale, gfScale_gfScale, gfScale_gfScale] at h
      rw [show i + 1 + 1 + n = n + 1 + (i + 1) by omega, eq_xor_of_xor_eq hscaled, rootCoeff, gfScale_xor, gfScale_xor,
        gfScale_gfScale, gfScale_gfScale, show i + 1 + n = n + 1 + i by omega]
      ac_rfl

/-- No coefficient of the generator is 0: from one to the next both factors are not 0. -/
theorem rootCoeff_ne_zero {n : Nat} (hn : n < 255) {j : Nat} (hj : j ≤ n) : rootCoeff n j ≠ 0 := by
  induction j with
  | zero => rw [rootCoeff_zero]; decide
  | succ j ih =>
    intro h
    have hratio := rootCoeff_ratio n j
    rw [h, gfScale_zero] at hratio
    exact gfScale_ne hj hn (ih (by omega)) (BitVec.xor_eq_zero_iff.1 hratio.symm)

/-- One factor more: mulRoot is the recursion of the coefficients. -/
theorem mulRoot_of_rootCoeff {g : List Nat} {n : Nat} (hg : g.map gfExp = (List.range (n + 1)).map (rootCoeff n)) :
    mulRoot g n = (List.range (n + 2)).map (rootCoeff (n + 1)) := by
  have hkept : g.map (fun e => gfExp ((e + 0) % 255)) ++ [0] = (List.range (n + 2)).map (rootCoeff n) := by
    simp only [Nat.add_zero, gfExp_mod]
    rw [hg, List.range_succ (n := n + 1), List.map_append, List.map_singleton, rootCoeff_of_lt n.lt_add_one]
  have hscaled : g.map (fun e => gfExp ((e + n) % 255)) = (List.range (n + 1)).map fun j => gfScale n (rootCoeff n j) := by
    simp only [gfExp_mod, ← gfScale_gfExp]
    rw [← Function.comp_def, ← List.map_map, hg, List.map_map, Function.comp_def]
  rw [mulRoot, hkept, hscaled, List.range_succ_eq_map, List.map_cons, List.map_cons, List.map_map, List.map_map,
    List.zipWith_cons_cons, List.zipWith_map, List.zipWith_self,
    rootCoeff_zero, rootCoeff_zero]
  rfl

theorem genpoly_eq_rootCoeff {n : Nat} (hn : n < 255) :
    genpoly n = (List.range (n + 1)).map fun j => gfLog (rootCoeff n j) := by
  induction n with
  | zero => decide
  | succ n ih =>
    have hvalues : (genpoly n).map gfExp = (List.range (n + 1)).map (rootCoeff n) := by
      rw [ih (by omega), List.map_map]
      refine List.map_congr_left fun j hj => gfExp_gfLog _ (rootCoeff_ne_zero (by omega) ?_)
      exact Nat.le_of_lt_succ (List.mem_range.1 hj)
    rw [genpoly_succ, mulRoot_of_rootCoeff hvalues, List.map_map]
    rfl

/-- The exponents of a generator are logarithms of elements other than 0. -/
theorem genpoly_lt_of_mem {n : Nat} (hn : n < 255) {e : Nat} (he : e ∈ genpoly n) : e < 255 := by
  rw [genpoly_eq_rootCoeff hn] at he
  obtain ⟨j, hj, rfl⟩ := List.mem_map.1 he
  exact gfLog_lt _ (rootCoeff_ne_zero hn (Nat.le_of_lt_succ (List.mem_range.1 hj)))

/-! ### The generator in GEN (rule R43) -/

theorem genFile_genpoly_toNat {n : Nat} (hn : n ≤ 30) (j : Fin 31) :
    ((genFile (genpoly n))[j]).toNat = if j.val ≤ n then (genpoly n).getD j.val 0 else 0 := by
  have hj : ((genFile (genpoly n))[j]).toNat = (genpoly n).getD j.val 0 % 256 := by simp [genFile]
  rw [hj]
  split
  · next h =>
    have hlen : j.val < (genpoly n).length := by rw [length_genpoly]; omega
    have hlt := genpoly_lt_of_mem (by omega) (List.getElem_mem hlen)
    rw [List.getD_eq_getElem _ _ hlen, Nat.mod_eq_of_lt (by omega)]
  · next h => rw [List.getD_eq_default _ _ (by rw [length_genpoly]; omega)]

end Sys2Proof.Machine

/-! INTERLEAVE (42_interleave.md): the block split, the order of the interleaved codewords, the faults in their order, and
the completed command. -/

namespace Sys2Proof.Machine

open Sys2Proof.Config

/-! ### The block split (rule R181) -/

@[simp] theorem length_splitBlocks (n k : Nat) (d : List Byte) : (splitBlocks n k d).length = n := by
  induction n generalizing d with
  | zero => rfl
  | succ n ih => rw [splitBlocks, List.length_cons, ih]

theorem getElem?_splitBlocks {n b : Nat} (hb : b < n) (k : Nat) (d : List Byte) :
    (splitBlocks n k d)[b]? = some ((d.drop (b * k)).take k) := by
  induction n generalizing d b with
  | zero => omega
  | succ n ih =>
    cases b with
    | zero => simp [splitBlocks]
    | succ b => rw [splitBlocks, List.getElem?_cons_succ, ih (by omega), List.drop_drop, Nat.succ_mul, Nat.add_comm k]

theorem flatten_splitBlocks (n k : Nat) (d : List Byte) : (splitBlocks n k d).flatten = d.take (n * k) := by
  induction n generalizing d with
  | zero => simp [splitBlocks]
  | succ n ih => rw [splitBlocks, List.flatten_cons, ih, Nat.succ_mul, Nat.add_comm, List.take_add]

/-- Every block of a group has the group's length when there are codewords enough. -/
theorem length_of_mem_splitBlocks {n k : Nat} {d b : List Byte} (hd : n * k ≤ d.length) (hb : b ∈ splitBlocks n k d) :
    b.length = k := by
  induction n generalizing d with
  | zero => cases hb
  | succ n ih =>
    rw [Nat.succ_mul] at hd
    rcases List.mem_cons.1 hb with rfl | hb
    · exact List.length_take_of_le (by omega)
    · exact ih (by rw [List.length_drop]; omega) hb

@[simp] theorem length_blocksOf (p : Plan) (d : List Byte) : (blocksOf p d).length = p.n1 + p.n2 := by
  rw [blocksOf, List.length_append, length_splitBlocks, length_splitBlocks]

theorem getElem?_blocksOf_group1 {p : Plan} {b : Nat} (hb : b < p.n1) (d : List Byte) :
    (blocksOf p d)[b]? = some ((d.drop (b * p.k1)).take p.k1) := by
  rw [blocksOf, List.getElem?_append_left (by simpa using hb), getElem?_splitBlocks hb]

theorem getElem?_blocksOf_group2 {p : Plan} {b : Nat} (hb : b < p.n2) (d : List Byte) :
    (blocksOf p d)[p.n1 + b]? = some ((d.drop (p.n1 * p.k1 + b * p.k2)).take p.k2) := by
  rw [blocksOf, List.getElem?_append_right (by simp), length_splitBlocks, Nat.add_sub_cancel_left,
    getElem?_splitBlocks hb, List.drop_drop]

section
variable {p : Plan} {d : List Byte} (hd : d.length = planData p)
include hd

theorem flatten_blocksOf : (blocksOf p d).flatten = d := by
  rw [planData] at hd
  rw [blocksOf, List.flatten_append, flatten_splitBlocks, flatten_splitBlocks,
    List.take_of_length_le (l := d.drop _) (by rw [List.length_drop]; omega), List.take_append_drop]

theorem length_of_mem_group1 {b : List Byte} (hb : b ∈ splitBlocks p.n1 p.k1 d) : b.length = p.k1 := by
  rw [planData] at hd
  exact length_of_mem_splitBlocks (by omega) hb

theorem length_of_mem_group2 {b : List Byte} (hb : b ∈ splitBlocks p.n2 p.k2 (d.drop (p.n1 * p.k1))) :
    b.length = p.k2 := by
  rw [planData] at hd
  exact length_of_mem_splitBlocks (by rw [List.length_drop]; omega) hb

theorem length_getD_blocksOf {b : Nat} (hb : b < p.n1 + p.n2) :
    ((blocksOf p d).getD b []).length = if b < p.n1 then p.k1 else p.k2 := by
  rw [List.getD_eq_getElem _ _ (by simpa using hb)]
  simp only [blocksOf, List.getElem_append, length_splitBlocks]
  split
  · exact length_of_mem_group1 hd (List.getElem_mem _)
  · exact length_of_mem_group2 hd (List.getElem_mem _)

end

/-- Settles O35: each group is split block by block. -/
theorem blockSplit : Obligations.BlockSplit := fun p d hd =>
  ⟨length_blocksOf p d, fun _ hb => getElem?_blocksOf_group1 hb d, fun _ hb => getElem?_blocksOf_group2 hb d,
    flatten_blocksOf hd⟩

/-! ### The order of the interleaved codewords (rules R183, R186) -/

/-- The codewords at index i of the blocks that have one, in block order (rule R183). -/
def blockColumn (i : Nat) (blocks : List (List Byte)) : List Byte := blocks.filterMap fun b => b[i]?

theorem interleaveColumns_eq (n : Nat) (blocks : List (List Byte)) :
    interleaveColumns n blocks = (List.range n).flatMap fun i => blockColumn i blocks := rfl

theorem blockColumn_append (i : Nat) (bs cs : List (List Byte)) :
    blockColumn i (bs ++ cs) = blockColumn i bs ++ blockColumn i cs := List.filterMap_append

theorem blockColumn_of_lt {i : Nat} {blocks : List (List Byte)} (h : ∀ b ∈ blocks, i < b.length) :
    blockColumn i blocks = blocks.map fun b => b.getD i 0 := by
  rw [blockColumn, ← List.filterMap_eq_map]
  refine List.filterMap_congr fun b hb => ?_
  simp [h b hb]

theorem blockColumn_of_le {i : Nat} {blocks : List (List Byte)} (h : ∀ b ∈ blocks, b.length ≤ i) :
    blockColumn i blocks = [] :=
  List.filterMap_eq_nil_iff.2 fun b hb => List.getElem?_eq_none (h b hb)

/-- The index test of rule R183: a block gives its codeword at i when it has one. -/
theorem toList_getElem? (b : List Byte) (i : Nat) : b[i]?.toList = if i < b.length then [b.getD i 0] else [] := by
  split
  · next h => rw [List.getD_eq_getElem b 0 h, List.getElem?_eq_getElem h, Option.toList_some]
  · next h => rw [List.getElem?_eq_none (Nat.le_of_not_lt h), Option.toList_none]

theorem blockColumn_eq_flatMap (i : Nat) (blocks : List (List Byte)) :
    blockColumn i blocks = blocks.flatMap fun b => if i < b.length then [b.getD i 0] else [] := by
  rw [blockColumn, List.filterMap_eq_flatMap_toList]
  simp only [toList_getElem?]

/-- The blocks in order, by their indexes. -/
theorem map_getD_range (blocks : List (List Byte)) :
    (List.range blocks.length).map (fun b => blocks.getD b []) = blocks :=
  List.ext_getElem (by simp) fun b _ hb => by simp [hb]

/-- All the columns of one block, in order, are its codewords. -/
theorem flatMap_range_getElem? (n : Nat) (b : List Byte) :
    ((List.range n).flatMap fun i => b[i]?.toList) = b.take n := by
  induction n with
  | zero => simp
  | succ n ih => simp [List.range_succ, ih, List.take_add_one]

/-- Interleaving blocks that fit the number of columns only reorders their codewords. -/
theorem interleaveColumns_perm {n : Nat} {blocks : List (List Byte)} (h : ∀ b ∈ blocks, b.length ≤ n) :
    (interleaveColumns n blocks).Perm blocks.flatten := by
  induction blocks with
  | nil => simp [interleaveColumns]
  | cons b bs ih =>
    obtain ⟨hb, hbs⟩ := List.forall_mem_cons.1 h
    have hcons : interleaveColumns n (b :: bs) =
        (List.range n).flatMap fun i => b[i]?.toList ++ blockColumn i bs := by
      simp only [interleaveColumns_eq, blockColumn, List.filterMap_eq_flatMap_toList, List.flatMap_cons]
    rw [hcons, List.flatten_cons]
    refine (List.flatMap_append_perm _ _ _).symm.trans ?_
    rw [flatMap_range_getElem?, List.take_of_length_le hb]
    exact (ih hbs).append_left b

theorem length_of_mem_blockEc {ec : Nat} {blocks : List (List Byte)} {b : List Byte} (hb : b ∈ blockEc ec blocks) :
    b.length = ec := by
  obtain ⟨x, -, rfl⟩ := List.mem_map.1 hb
  exact length_rsRemainder x ec

/-! The statements of rules R183 and R186 for the blocks of a plan. -/

section
variable {p : Plan} {d : List Byte} (hd : d.length = planData p)
include hd

/-- The data part by column and block. -/
theorem interleaveColumns_blocksOf :
    interleaveColumns (max p.k1 p.k2) (blocksOf p d) =
      (List.range (max p.k1 p.k2)).flatMap fun i => (List.range (p.n1 + p.n2)).flatMap fun b =>
        if i < (if b < p.n1 then p.k1 else p.k2) then [((blocksOf p d).getD b []).getD i 0] else [] := by
  rw [interleaveColumns_eq]
  refine List.flatMap_congr fun i _ => ?_
  conv_lhs => rw [blockColumn_eq_flatMap, ← map_getD_range (blocksOf p d), length_blocksOf, List.flatMap_map]
  refine List.flatMap_congr fun b hb => ?_
  rw [length_getD_blocksOf hd (List.mem_range.1 hb)]

/-- Every block of a plan fits the columns of the data part. -/
theorem length_le_of_mem_blocksOf {b : List Byte} (hb : b ∈ blocksOf p d) : b.length ≤ max p.k1 p.k2 := by
  rcases List.mem_append.1 hb with hb | hb
  · exact length_of_mem_group1 hd hb ▸ Nat.le_max_left ..
  · exact length_of_mem_group2 hd hb ▸ Nat.le_max_right ..

theorem interleaveData_perm : (interleaveColumns (max p.k1 p.k2) (blocksOf p d)).Perm d := by
  have h := interleaveColumns_perm fun b hb => length_le_of_mem_blocksOf hd (b := b) hb
  rwa [flatten_blocksOf hd] at h

/-- Group 2 one codeword longer: every block's codewords below k1, then the last ones of group 2 (rule R186). -/
theorem interleaveColumns_blocksOf_succ (hk : p.k2 = p.k1 + 1) :
    interleaveColumns (max p.k1 p.k2) (blocksOf p d) =
      ((List.range p.k1).flatMap fun i => (blocksOf p d).map fun b => b.getD i 0) ++
        ((blocksOf p d).drop p.n1).map fun b => b.getD p.k1 0 := by
  have hmax : max p.k1 p.k2 = p.k1 + 1 := by omega
  have hfull : ∀ i ∈ List.range p.k1, blockColumn i (blocksOf p d) = (blocksOf p d).map fun b => b.getD i 0 := by
    refine fun i hi => blockColumn_of_lt fun b hb => ?_
    have hi := List.mem_range.1 hi
    rcases List.mem_append.1 hb with hb | hb
    · rwa [length_of_mem_group1 hd hb]
    · rw [length_of_mem_group2 hd hb]
      omega
  have hlast : blockColumn p.k1 (blocksOf p d) = ((blocksOf p d).drop p.n1).map fun b => b.getD p.k1 0 := by
    rw [blocksOf, blockColumn_append, blockColumn_of_le fun b hb => (length_of_mem_group1 hd hb).le,
      blockColumn_of_lt fun b hb => by rw [length_of_mem_group2 hd hb]; omega, List.nil_append,
      List.drop_left' (length_splitBlocks ..)]
  rw [hmax, interleaveColumns_eq, List.range_succ, List.flatMap_append, List.flatMap_congr hfull, List.flatMap_singleton,
    hlast]

end

/-- The EC part by column and block: every block has an EC codeword at each index below ec. -/
theorem interleaveColumns_blockEc (ec : Nat) (blocks : List (List Byte)) :
    interleaveColumns ec (blockEc ec blocks) =
      (List.range ec).flatMap fun i => (List.range blocks.length).map fun b =>
        (rsRemainder (blocks.getD b []) ec).getD i 0 := by
  rw [interleaveColumns_eq]
  refine List.flatMap_congr fun i hi => ?_
  rw [blockColumn_of_lt fun b hb => by rw [length_of_mem_blockEc hb]; exact List.mem_range.1 hi]
  conv_lhs => rw [blockEc, ← map_getD_range blocks, List.map_map, List.map_map]
  rfl

theorem interleaveEC_perm (ec : Nat) (blocks : List (List Byte)) :
    (interleaveColumns ec (blockEc ec blocks)).Perm (blockEc ec blocks).flatten :=
  interleaveColumns_perm fun _ hb => (length_of_mem_blockEc hb).le

/-! ### The default plans (rules R76, R78) -/

theorem refPlan_default (level : Level) {v : Nat} (h1 : 1 ≤ v) (h40 : v ≤ 40) :
    refPlan defaultRefData level v = defaultPlan level v := by
  have hv : versions[v - 1]? = some v := by
    rw [versions, List.getElem?_map, List.getElem?_range (by omega), Option.map_some, Nat.sub_add_cancel h1]
  cases level <;> simp [refPlan, pickLevel, defaultRefData, hv]

/-- Group 2 of a default plan is one codeword longer, or absent. -/
theorem defaultPlan_groups (level : Level) (v : Nat) :
    (defaultPlan level v).k2 = (defaultPlan level v).k1 + 1 ∨ (defaultPlan level v).n2 = 0 := by
  dsimp only [defaultPlan]
  split
  · exact .inl rfl
  · exact .inr (by omega)

/-- Settles O36: a column takes a codeword from each block long enough, and all columns of a block are the block. -/
theorem interleavePermutes : Obligations.InterleavePermutes := by
  refine ⟨?_, fun level v h1 h40 => ?_⟩
  · rintro p d hd _ rfl
    refine ⟨interleaveColumns_blocksOf hd, ?_, rfl, interleaveData_perm hd, interleaveEC_perm _ _,
      fun hk _ => interleaveColumns_blocksOf_succ hd hk⟩
    rw [interleaveColumns_blockEc, length_blocksOf]
  · rw [refPlan_default level h1 h40]
    exact defaultPlan_groups level v

/-! ### INTERLEAVE's faults (rules R180, R267) -/

section
variable {s : State}

/-- A check of INTERLEAVE that fails after the version check faults the command. -/
theorem exec_interleave_of_error {r : Raised} (hv : 1 ≤ s.versionNat ∧ s.versionNat ≤ 40)
    (h : interleaveCompute s s.versionNat = .error r) : exec .interleave s = .next (s.raise 0x22 r) := by
  have he : interleaveEffect s = .error r := by rw [interleaveEffect, State.withVersion_legal _ hv, h]
  rw [exec, execInterleave, he, State.finish_error]
  rfl

variable (v : Nat)

theorem interleaveCompute_of_invalid (hd : s.dcwValid = false) :
    interleaveCompute s v = .error ⟨.sequence, 1⟩ := by
  rw [interleaveCompute, if_pos (by simp [hd])]

theorem interleaveCompute_of_malformed (hd : s.dcwValid = true)
    (hp : planOk (refPlan s.params.refdata s.level v) = false) :
    interleaveCompute s v = .error ⟨.refdata, 1⟩ := by
  rw [interleaveCompute, if_neg (by simp [hd])]
  exact if_pos (by simp [hp])

theorem interleaveCompute_of_tooLong (hd : s.dcwValid = true)
    (hp : planOk (refPlan s.params.refdata s.level v) = true)
    (hlen : 8 * streamCap <
      streamLength (refPlan s.params.refdata s.level v) (refRemainderBits s.params.refdata v)) :
    interleaveCompute s v = .error ⟨.refdata, 3⟩ := by
  rw [interleaveCompute, if_neg (by simp [hd])]
  exact (if_neg (by simp [hp])).trans (if_pos hlen)

end

/-- Settles O34: each check fails with the earlier ones passed. -/
theorem interleaveFaultOrder : Obligations.InterleaveFaultOrder := fun _ h1 h40 =>
  ⟨fun hd => exec_interleave_of_error ⟨h1, h40⟩ (interleaveCompute_of_invalid _ hd),
    fun hd hp => exec_interleave_of_error ⟨h1, h40⟩ (interleaveCompute_of_malformed _ hd hp),
    fun hd hp hlen => exec_interleave_of_error ⟨h1, h40⟩ (interleaveCompute_of_tooLong _ hd hp hlen)⟩

/-! ### INTERLEAVE completed -/

theorem planOk_ec_le {p : Plan} (h : planOk p = true) : p.ec ≤ 30 := by
  simp only [planOk, Bool.and_eq_true, decide_eq_true_eq] at h
  obtain ⟨⟨⟨⟨-, hec⟩, -⟩, -⟩, -⟩ := h
  exact hec

section
variable {s : State} (hr : InterleaveReady s)
include hr

theorem exec_interleave_of_ready :
    exec .interleave s = .next (interleaveCommit s (interleavedOf s)).complete := by
  rw [exec, execInterleave, interleaveEffect_ok_iff.2 ⟨hr, rfl⟩, State.finish_ok]

theorem interleaveCommit_streamBits :
    (interleaveCommit s (interleavedOf s)).complete.streamBits.toNat = configuredStreamLength s := by
  have hfits := hr.fits
  exact Nat.mod_eq_of_lt (a := configuredStreamLength s) (by omega)

end

/-- The stream after INTERLEAVE: the codewords and zero bits up to the stream's end, what stood there after it. -/
theorem interleaveCommit_streamByte {s : State} (hs : s.buffersCanonical) (i : Nat) :
    (interleaveCommit s (interleavedOf s)).complete.streamByte i =
      if i < bytesFor (configuredStreamLength s) then
        (interleavedCodewords (configuredPlan s) (firstBytes s.dcwByte (planData (configuredPlan s)))).getD i 0
      else s.streamByte i := by
  obtain ⟨-, -, hstream, -⟩ := hs
  refine (getD_find_commit_writesFrom hstream.1 _ i _).trans ?_
  rw [List.getD_eq_getElem?_getD]
  dsimp only [interleavedOf]
  split
  · next h => rw [getElem?_bytesOfBits h, Option.getD_some]
  · next h =>
    rw [List.getElem?_eq_none (by rw [length_bytesOfBits]; omega), Option.getD_none]
    rfl

/-- Settles O33: the commit, field by field and address by address. -/
theorem interleaveCompletes : Obligations.InterleaveCompletes := by
  intro s hs hr
  have hbits := interleaveCommit_streamBits hr
  have hec := planOk_ec_le hr.plan
  have hfit : bytesFor (configuredStreamLength s) ≤ Window.stream.size := by
    have hfits := hr.fits
    simp only [bytesFor, Window.sizes]
    omega
  refine ⟨_, exec_interleave_of_ready hr, rfl, ?_,
    Nat.mod_eq_of_lt (Nat.lt_of_le_of_lt hec (by decide)), genFile_genpoly_toNat hec, fun a => ?_⟩
  · rw [hbits, configuredStreamLength, streamLength]
    ring
  · rw [hbits]
    refine byteAt_of_firstBytes_written hfit (interleaveCommit_streamByte hs) (fun x hx i => ?_) a
    cases x with
    | stream => exact absurd rfl hx
    | _ => rfl

end Sys2Proof.Machine

/-! The traversal order of PLACE (43_matrix.md rule R208): the right columns, one pair's walk, and the whole order by index
and by member. -/

namespace Sys2Proof.Machine

/-! ### The right columns -/

/-- The right column of pair p in the symbol of side 2j + 1: column 6 moves the pairs after (8, 7) one column left. -/
def rightColumn (j p : Nat) : Nat := if 8 ≤ 2 * j - 2 * p then 2 * j - 2 * p else 2 * j - 1 - 2 * p

theorem rightColumn_succ (j p : Nat) : rightColumn (j + 1) (p + 1) = rightColumn j p := by
  rw [rightColumn, show 2 * (j + 1) - 2 * (p + 1) = 2 * j - 2 * p by omega,
    show 2 * (j + 1) - 1 - 2 * (p + 1) = 2 * j - 1 - 2 * p by omega, rightColumn]

theorem pairColumns_of_no_column (fuel : Nat) : pairColumns fuel 0 = [] := by
  cases fuel <;> rfl

theorem pairColumns_six {fuel : Nat} (h : 3 ≤ fuel) : pairColumns fuel 6 = [5, 3, 1] := by
  obtain ⟨f, rfl⟩ := Nat.exists_eq_add_of_le' h
  simp [pairColumns, pairColumns_of_no_column]

theorem pairColumns_eq {j fuel : Nat} (hj : 3 ≤ j) (hfuel : j ≤ fuel) :
    pairColumns fuel (2 * j) = (List.range j).map (rightColumn j) := by
  induction j, hj using Nat.le_induction generalizing fuel with
  | base => rw [pairColumns_six hfuel]; rfl
  | succ j hj ih =>
    obtain ⟨f, rfl⟩ := Nat.exists_eq_add_one_of_ne_zero (by omega : fuel ≠ 0)
    have hfirst : rightColumn (j + 1) 0 = 2 * (j + 1) := if_pos (by omega)
    rw [pairColumns, if_neg (by omega), if_neg (by omega), Nat.mul_succ, Nat.add_sub_cancel, ih (by omega),
      List.range_succ_eq_map, List.map_cons, List.map_map, hfirst, Nat.mul_succ]
    exact congrArg _ (List.map_congr_left fun p _ => (rightColumn_succ j p).symm)

/-- The pairs meet every column but column 6. -/
theorem exists_rightColumn_iff {j c : Nat} (hj : 3 ≤ j) :
    (∃ p < j, c = rightColumn j p ∨ c = rightColumn j p - 1) ↔ c < 2 * j + 1 ∧ c ≠ 6 := by
  simp only [rightColumn]
  constructor
  · rintro ⟨p, hp, hc⟩
    split at hc <;> omega
  · rintro ⟨hc, h6⟩
    by_cases hleft : c < 6
    · exact ⟨(2 * j - 1 - c) / 2, by omega, by rw [if_neg (by omega)]; omega⟩
    · exact ⟨(2 * j - c) / 2, by omega, by rw [if_pos (by omega)]; omega⟩

/-! ### The walk of one pair and of all -/

theorem length_flatMap_two {α : Type} (f g : Nat → α) (n : Nat) :
    ((List.range n).flatMap fun t => [f t, g t]).length = 2 * n := by
  simp [List.length_flatMap, Nat.mul_comm]

/-- Two entries for each t: those of t stand at 2t and 2t + 1. -/
theorem getElem?_flatMap_two {α : Type} (f g : Nat → α) {n t : Nat} (ht : t < n) :
    ((List.range n).flatMap fun t => [f t, g t])[2 * t]? = some (f t) ∧
      ((List.range n).flatMap fun t => [f t, g t])[2 * t + 1]? = some (g t) := by
  induction n with
  | zero => omega
  | succ n ih =>
    rw [List.range_succ, List.flatMap_append, List.flatMap_singleton]
    by_cases h : t < n
    · rw [List.getElem?_append_left (by rw [length_flatMap_two]; omega),
        List.getElem?_append_left (by rw [length_flatMap_two]; omega)]
      exact ih h
    · obtain rfl : t = n := by omega
      rw [List.getElem?_append_right (length_flatMap_two ..).le,
        List.getElem?_append_right (by rw [length_flatMap_two]; omega), length_flatMap_two, Nat.sub_self,
        Nat.add_sub_cancel_left]
      exact ⟨rfl, rfl⟩

@[simp] theorem length_walkPair (n : Nat) (up : Bool) (right : Nat) : (walkPair n up right).length = 2 * n :=
  length_flatMap_two ..

/-- The row of step t of a pair's walk. -/
def walkRow (n : Nat) (up : Bool) (t : Nat) : Nat := if up then n - 1 - t else t

theorem getElem?_walkPair (up : Bool) (right : Nat) {n t : Nat} (ht : t < n) :
    (walkPair n up right)[2 * t]? = some (walkRow n up t, right) ∧
      (walkPair n up right)[2 * t + 1]? = some (walkRow n up t, right - 1) :=
  getElem?_flatMap_two (fun t => (walkRow n up t, right)) (fun t => (walkRow n up t, right - 1)) ht

theorem mem_walkPair {n : Nat} {up : Bool} {right r c : Nat} :
    (r, c) ∈ walkPair n up right ↔ r < n ∧ (c = right ∨ c = right - 1) := by
  have hrow : r < n ↔ ∃ t < n, r = walkRow n up t := by
    cases up with
    | false => simp [walkRow]
    | true => exact ⟨fun h => ⟨n - 1 - r, by omega, by simp only [walkRow, if_true]; omega⟩,
        fun ⟨t, ht, h⟩ => by simp only [walkRow, if_true] at h; omega⟩
  rw [hrow]
  change (r, c) ∈ (List.range n).flatMap (fun t => [(walkRow n up t, right), (walkRow n up t, right - 1)]) ↔ _
  simp only [List.mem_flatMap, List.mem_range, List.mem_cons, List.not_mem_nil, or_false, Prod.mk.injEq, ← and_or_left]
  exact ⟨fun ⟨t, ht, hr, hc⟩ => ⟨⟨t, ht, hr⟩, hc⟩, fun ⟨⟨t, ht, hr⟩, hc⟩ => ⟨t, ht, hr, hc⟩⟩

theorem length_walkPairs (n : Nat) (up : Bool) (cs : List Nat) : (walkPairs n up cs).length = 2 * n * cs.length := by
  induction cs generalizing up with
  | nil => rfl
  | cons right cs ih =>
    rw [walkPairs, List.length_append, length_walkPair, ih, List.length_cons, Nat.mul_succ, Nat.add_comm]

/-- Pair p is walked from index 2np on, in the first direction when p is even. -/
theorem getElem?_walkPairs {n : Nat} {up : Bool} {cs : List Nat} {p right i : Nat} (hp : cs[p]? = some right)
    (hi : i < 2 * n) :
    (walkPairs n up cs)[2 * n * p + i]? = (walkPair n (if p % 2 = 0 then up else !up) right)[i]? := by
  induction cs generalizing up p with
  | nil => cases hp
  | cons c cs ih =>
    rw [walkPairs]
    cases p with
    | zero =>
      obtain rfl : c = right := by simpa using hp
      rw [Nat.mul_zero, Nat.zero_add, List.getElem?_append_left (by rwa [length_walkPair])]
      rfl
    | succ p =>
      rw [Nat.mul_succ, List.getElem?_append_right (by rw [length_walkPair]; omega), length_walkPair,
        show 2 * n * p + 2 * n + i - 2 * n = 2 * n * p + i by omega, ih (by simpa using hp)]
      rcases Nat.mod_two_eq_zero_or_one p with h | h <;> simp [h, Nat.add_mod]

theorem mem_walkPairs {n : Nat} {up : Bool} {cs : List Nat} {r c : Nat} :
    (r, c) ∈ walkPairs n up cs ↔ r < n ∧ ∃ right ∈ cs, c = right ∨ c = right - 1 := by
  induction cs generalizing up with
  | nil => simp [walkPairs]
  | cons right cs ih =>
    simp only [walkPairs, List.mem_append, mem_walkPair, ih, List.exists_mem_cons_iff, ← and_or_left]

/-! ### order(N) -/

section
variable {v n : Nat} (hn : n = 4 * v + 17)
include hn

theorem placeOrder_eq : placeOrder n = walkPairs n true ((List.range (2 * v + 8)).map (rightColumn (2 * v + 8))) := by
  rw [placeOrder, show n - 1 = 2 * (2 * v + 8) by omega, pairColumns_eq (by omega) (by omega)]

theorem length_placeOrder : (placeOrder n).length = n * (n - 1) := by
  rw [placeOrder_eq hn, length_walkPairs, List.length_map, List.length_range, Nat.mul_comm 2, Nat.mul_assoc,
    show 2 * (2 * v + 8) = n - 1 by omega]

theorem mem_placeOrder {r c : Nat} : (r, c) ∈ placeOrder n ↔ r < n ∧ c < n ∧ c ≠ 6 := by
  have hside : n = 2 * (2 * v + 8) + 1 := by omega
  rw [placeOrder_eq hn, mem_walkPairs]
  simp only [List.mem_map, List.mem_range, exists_exists_and_eq_and]
  rw [exists_rightColumn_iff (by omega), ← hside]

/-- As many entries as cells outside column 6, and each of them met: no cell is met twice. -/
theorem nodup_placeOrder : (placeOrder n).Nodup := by
  have hcells : (placeOrder n).toFinset = Finset.range n ×ˢ (Finset.range n).erase 6 := by
    ext ⟨r, c⟩
    rw [List.mem_toFinset, mem_placeOrder hn, Finset.mem_product, Finset.mem_erase, Finset.mem_range, Finset.mem_range]
    tauto
  have hcard : (placeOrder n).toFinset.card = (placeOrder n).length := by
    rw [hcells, length_placeOrder hn, Finset.card_product, Finset.card_erase_of_mem (Finset.mem_range.2 (by omega)),
      Finset.card_range]
  exact Multiset.toFinset_card_eq_card_iff_nodup.1 hcard

theorem getElem?_placeOrder {p t : Nat} (hp : p < (n - 1) / 2) (ht : t < n) :
    (placeOrder n)[2 * n * p + 2 * t]? = some (walkRow n (p % 2 = 0) t, rightColumn (2 * v + 8) p) ∧
      (placeOrder n)[2 * n * p + 2 * t + 1]? = some (walkRow n (p % 2 = 0) t, rightColumn (2 * v + 8) p - 1) := by
  have hcol : ((List.range (2 * v + 8)).map (rightColumn (2 * v + 8)))[p]? = some (rightColumn (2 * v + 8) p) := by
    rw [List.getElem?_map, List.getElem?_range (by omega), Option.map_some]
  have hup : (if p % 2 = 0 then true else !true) = decide (p % 2 = 0) := by
    by_cases h : p % 2 = 0 <;> simp [h]
  rw [placeOrder_eq hn, Nat.add_assoc, getElem?_walkPairs hcol (by omega), getElem?_walkPairs hcol (by omega), hup]
  exact getElem?_walkPair _ _ ht

end

/-- Settles O41: the order by its right columns and the walk of each pair; it has no room for a cell met twice. -/
theorem traversalOrder : Obligations.TraversalOrder := by
  intro v n _ _ hn
  refine ⟨length_placeOrder hn, ?_, nodup_placeOrder hn, fun r c => mem_placeOrder hn⟩
  rintro p t hp ht _ _ rfl rfl
  have h := getElem?_placeOrder hn hp ht
  simp only [walkRow, rightColumn, decide_eq_true_eq] at h
  rwa [show 2 * (2 * v + 8) = n - 1 by omega, show n - 1 - 1 = n - 2 by omega] at h

end Sys2Proof.Machine

/-! FUNCPAT's patterns (43_matrix.md rules R190 to R201): each step by the cells it writes, the cells that stay Empty, and
the default centre pairs, whose patterns keep clear of the corners and of each other. -/

namespace Sys2Proof.Machine

/-! ### Each step by its cells (rules R192 to R200) -/

@[simp] theorem within_iff {lo x hi : Nat} : within lo x hi = true ↔ lo ≤ x ∧ x ≤ hi := by
  simp [within]

theorem absDiff_eq_natAbs (a b : Nat) : absDiff a b = ((a : Int) - b).natAbs := by
  simp only [absDiff]
  omega

/-- The code of a finder's cell, dr below and dc right of its top-left cell (rule R192). -/
def finderCode (dr dc : Nat) : CellCode :=
  if max ((dr : Int) - 3).natAbs ((dc : Int) - 3).natAbs = 2 then patternBackgroundCell else patternForegroundCell

/-- The code of cell (r, c) in the alignment pattern with centre p (rule R195). -/
def alignmentCode (p : Nat × Nat) (r c : Nat) : CellCode :=
  if max ((r : Int) - p.1).natAbs ((c : Int) - p.2).natAbs = 1 then patternBackgroundCell else patternForegroundCell

/-- The code of a timing cell, i its running coordinate (rule R200). -/
def timingCode (i : Nat) : CellCode := if i % 2 = 0 then patternForegroundCell else patternBackgroundCell

/-- The cells of the finder with top-left cell (r0, c0). -/
abbrev FinderArea (r0 c0 r c : Nat) : Prop := r0 ≤ r ∧ r ≤ r0 + 6 ∧ c0 ≤ c ∧ c ≤ c0 + 6

/-- The cells of rule R194. -/
abbrev SeparatorArea (n r c : Nat) : Prop :=
  (r = 7 ∧ c ≤ 7) ∨ (c = 7 ∧ r ≤ 7) ∨ (r = 7 ∧ n - 8 ≤ c ∧ c ≤ n - 1) ∨ (c = n - 8 ∧ r ≤ 7) ∨ (r = n - 8 ∧ c ≤ 7) ∨
    (c = 7 ∧ n - 8 ≤ r ∧ r ≤ n - 1)

/-- The cells of rules R196 and R197. -/
abbrev FormatArea (n r c : Nat) : Prop :=
  (r = 8 ∧ (c ≤ 5 ∨ (7 ≤ c ∧ c ≤ 8))) ∨ (c = 8 ∧ (r ≤ 5 ∨ r = 7)) ∨ (r = 8 ∧ n - 8 ≤ c ∧ c ≤ n - 1) ∨
    (c = 8 ∧ n - 7 ≤ r ∧ r ≤ n - 1)

/-- The cell of rule R198. -/
abbrev DarkCell (n r c : Nat) : Prop := r = n - 8 ∧ c = 8

/-- The cells of rule R199. -/
abbrev VersionArea (v n r c : Nat) : Prop :=
  7 ≤ v ∧ ((r ≤ 5 ∧ n - 11 ≤ c ∧ c ≤ n - 9) ∨ (n - 11 ≤ r ∧ r ≤ n - 9 ∧ c ≤ 5))

/-- The cells of rule R200 in row 6; those in column 6 are their mirror image. -/
abbrev TimingRow (n r c : Nat) : Prop := r = 6 ∧ 8 ≤ c ∧ c ≤ n - 9

/-- Cell (r, c) lies in the 5 × 5 pattern with centre p. -/
abbrev AlignmentCovers (p : Nat × Nat) (r c : Nat) : Prop :=
  p.1 ≤ r + 2 ∧ r ≤ p.1 + 2 ∧ p.2 ≤ c + 2 ∧ c ≤ p.2 + 2

section
variable (n : Nat) (w : Matrix) (r c : Nat)

theorem finder_apply (r0 c0 : Nat) :
    finder r0 c0 w r c =
      if FinderArea r0 c0 r c then finderCode (r - r0) (c - c0) else w r c := by
  simp [finder, finderCode, absDiff_eq_natAbs, and_assoc]

theorem separators_apply :
    separators n w r c = if SeparatorArea n r c then patternBackgroundCell else w r c := by
  simp [separators, or_assoc, SeparatorArea]

theorem alignmentPattern_apply (p : Nat × Nat) :
    alignmentPattern w p r c = if AlignmentCovers p r c then alignmentCode p r c else w r c := by
  have hcovers : (((r : Int) - p.1).natAbs ≤ 2 ∧ ((c : Int) - p.2).natAbs ≤ 2) ↔ AlignmentCovers p r c := by
    omega
  simp [alignmentPattern, alignmentCode, absDiff_eq_natAbs, hcovers]

theorem reserveFormat_apply :
    reserveFormat n w r c = if FormatArea n r c then reservedCell else w r c := by
  simp [reserveFormat, or_assoc, FormatArea]

theorem darkModule_apply :
    darkModule n w r c = if DarkCell n r c then patternForegroundCell else w r c := by
  simp [darkModule]

theorem reserveVersion_apply (v : Nat) :
    reserveVersion v n w r c = if VersionArea v n r c then reservedCell else w r c := by
  simp [reserveVersion, and_assoc, VersionArea]

theorem timing_apply :
    timing n w r c =
      if TimingRow n r c then timingCode c else if TimingRow n c r then timingCode r else w r c := by
  simp [timing, timingCode]

end

/-! ### The alignment patterns together (rule R195) -/

section
variable {ps : List (Nat × Nat)} {r c : Nat}

theorem alignments_of_uncovered (h : ∀ p ∈ ps, ¬AlignmentCovers p r c) (w : Matrix) :
    ps.foldl alignmentPattern w r c = w r c := by
  induction ps generalizing w with
  | nil => rfl
  | cons p ps ih =>
    obtain ⟨hp, hps⟩ := List.forall_mem_cons.1 h
    rw [List.foldl_cons, ih hps, alignmentPattern_apply, if_neg hp]

/-- Where one centre's pattern alone covers a cell, the order of the list does not matter. -/
theorem alignments_of_covered {p : Nat × Nat} (hp : p ∈ ps) (hcovers : AlignmentCovers p r c)
    (honly : ∀ q ∈ ps, AlignmentCovers q r c → q = p) (w : Matrix) :
    ps.foldl alignmentPattern w r c = alignmentCode p r c := by
  induction ps generalizing w with
  | nil => cases hp
  | cons q ps ih =>
    obtain ⟨hq, hps⟩ := List.forall_mem_cons.1 honly
    rw [List.foldl_cons]
    by_cases hlater : p ∈ ps
    · exact ih hlater hps _
    · obtain rfl : p = q := (List.mem_cons.1 hp).resolve_right hlater
      have huncovered : ∀ x ∈ ps, ¬AlignmentCovers x r c := fun x hx hxc => hlater (hps x hx hxc ▸ hx)
      rw [alignments_of_uncovered huncovered, alignmentPattern_apply, if_pos hcovers]

end

/-! ### The cells that stay Empty (rules R190, R191) -/

theorem ite_eq_emptyCell_iff {p : Prop} [Decidable p] {x y : CellCode} (hx : x ≠ emptyCell) :
    (if p then x else y) = emptyCell ↔ ¬p ∧ y = emptyCell := by
  by_cases h : p <;> simp [h, hx]

theorem patternCode_ne_emptyCell {p : Prop} [Decidable p] {x y : CellCode} (hx : x ≠ emptyCell) (hy : y ≠ emptyCell) :
    (if p then x else y) ≠ emptyCell := by
  split
  · exact hx
  · exact hy

theorem finderCode_ne_emptyCell (dr dc : Nat) : finderCode dr dc ≠ emptyCell :=
  patternCode_ne_emptyCell (by decide) (by decide)

theorem alignmentCode_ne_emptyCell (p : Nat × Nat) (r c : Nat) : alignmentCode p r c ≠ emptyCell :=
  patternCode_ne_emptyCell (by decide) (by decide)

theorem timingCode_ne_emptyCell (i : Nat) : timingCode i ≠ emptyCell :=
  patternCode_ne_emptyCell (by decide) (by decide)

theorem alignments_eq_emptyCell_iff (ps : List (Nat × Nat)) (w : Matrix) (r c : Nat) :
    ps.foldl alignmentPattern w r c = emptyCell ↔ (¬∃ p ∈ ps, AlignmentCovers p r c) ∧ w r c = emptyCell := by
  induction ps generalizing w with
  | nil => simp
  | cons p ps ih =>
    rw [List.foldl_cons, ih, alignmentPattern_apply, ite_eq_emptyCell_iff (alignmentCode_ne_emptyCell p r c),
      List.exists_mem_cons_iff, not_or, ← and_assoc, and_comm (a := ¬AlignmentCovers p r c)]

/-- A finder and its separator are the 8 × 8 block in its corner. -/
abbrev FinderBlock (n r c : Nat) : Prop :=
  (r ≤ 7 ∧ c ≤ 7) ∨ (r ≤ 7 ∧ n - 8 ≤ c ∧ c ≤ n - 1) ∨ (n - 8 ≤ r ∧ r ≤ n - 1 ∧ c ≤ 7)

theorem finders_separators_eq_emptyCell_iff {n : Nat} (hn : 17 ≤ n) (r c : Nat) :
    separators n (finders n fun _ _ => emptyCell) r c = emptyCell ↔ ¬FinderBlock n r c := by
  have hblock : SeparatorArea n r c ∨ FinderArea (n - 7) 0 r c ∨ FinderArea 0 (n - 7) r c ∨ FinderArea 0 0 r c ↔
      FinderBlock n r c := by
    omega
  simp only [← hblock, separators_apply, finders, finder_apply, not_or, and_true,
    ite_eq_emptyCell_iff (show patternBackgroundCell ≠ emptyCell by decide),
    ite_eq_emptyCell_iff (finderCode_ne_emptyCell _ _)]

/-- A cell is Empty after FUNCPAT exactly when no step writes it: every code written is another one. -/
theorem functionPatterns_eq_emptyCell_iff {v n : Nat} (hn : n = sideOf v) (ps : List (Nat × Nat)) (r c : Nat) :
    functionPatterns v ps r c = emptyCell ↔
      ¬(TimingRow n r c ∨ TimingRow n c r ∨ VersionArea v n r c ∨ DarkCell n r c ∨ FormatArea n r c ∨
        (∃ p ∈ ps, AlignmentCovers p r c) ∨ FinderBlock n r c) := by
  have hside : n = 4 * v + 17 := hn
  simp only [functionPatterns, ← hn, timing_apply, reserveVersion_apply, darkModule_apply, reserveFormat_apply,
    alignments_eq_emptyCell_iff, finders_separators_eq_emptyCell_iff (show 17 ≤ n by omega), not_or,
    ite_eq_emptyCell_iff (timingCode_ne_emptyCell _),
    ite_eq_emptyCell_iff (show reservedCell ≠ emptyCell by decide),
    ite_eq_emptyCell_iff (show patternForegroundCell ≠ emptyCell by decide)]

/-- The format areas and the dark module enlarge the finders' blocks by one row and one column, but for two timing cells. -/
theorem corners_iff {v n r c : Nat} (hn : n = 4 * v + 17) (hr : r < n) (hc : c < n) :
    DarkCell n r c ∨ FormatArea n r c ∨ FinderBlock n r c ↔
      ((r ≤ 8 ∧ c ≤ 8) ∨ (r ≤ 8 ∧ n - 8 ≤ c) ∨ (n - 8 ≤ r ∧ c ≤ 8)) ∧ ¬(r = 6 ∧ c = 8) ∧ ¬(r = 8 ∧ c = 6) := by
  omega

theorem functionArea_eq_true_iff (v n : Nat) (ps : List (Nat × Nat)) (r c : Nat) :
    functionArea v n ps r c = true ↔
      (r ≤ 8 ∧ c ≤ 8) ∨ (r ≤ 8 ∧ n - 8 ≤ c) ∨ (n - 8 ≤ r ∧ c ≤ 8) ∨ r = 6 ∨ c = 6 ∨
        (∃ p ∈ ps, AlignmentCovers p r c) ∨ (7 ≤ v ∧ ((r ≤ 5 ∧ n - 11 ≤ c) ∨ (n - 11 ≤ r ∧ c ≤ 5))) := by
  simp only [functionArea, Bool.or_eq_true, Bool.and_eq_true, decide_eq_true_eq, List.any_eq_true, or_assoc]

/-- Inside N × N the cells that FUNCPAT writes are the corners, row 6, column 6, the alignment patterns and the version
areas. -/
theorem functionPatterns_eq_emptyCell_iff_area {v n r c : Nat} (hn : n = sideOf v) (h1 : 1 ≤ v) (hr : r < n) (hc : c < n)
    (ps : List (Nat × Nat)) : functionPatterns v ps r c = emptyCell ↔ functionArea v n ps r c = false := by
  have hside : n = 4 * v + 17 := hn
  have hfixed : (TimingRow n r c ∨ TimingRow n c r ∨ VersionArea v n r c ∨ DarkCell n r c ∨ FormatArea n r c ∨
      FinderBlock n r c) ↔ (r ≤ 8 ∧ c ≤ 8) ∨ (r ≤ 8 ∧ n - 8 ≤ c) ∨ (n - 8 ≤ r ∧ c ≤ 8) ∨ r = 6 ∨ c = 6 ∨
        (7 ≤ v ∧ ((r ≤ 5 ∧ n - 11 ≤ c) ∨ (n - 11 ≤ r ∧ c ≤ 5))) := by
    rw [corners_iff hside hr hc]
    omega
  rw [functionPatterns_eq_emptyCell_iff hn, ← Bool.not_eq_true, functionArea_eq_true_iff]
  by_cases halign : ∃ p ∈ ps, AlignmentCovers p r c
  · simp only [halign, true_or, or_true]
  · simp only [halign, false_or, hfixed]

/-- Outside N × N FUNCPAT leaves every cell Empty when the centres are far enough from the edges (rule R191). -/
theorem functionPatterns_outside {v n r c : Nat} (hn : n = sideOf v) (hout : ¬(r < n ∧ c < n)) {ps : List (Nat × Nat)}
    (hps : ∀ p ∈ ps, 2 ≤ p.1 ∧ 2 ≤ p.2 ∧ p.1 ≤ n - 3 ∧ p.2 ≤ n - 3) : functionPatterns v ps r c = 0 := by
  have hside : n = 4 * v + 17 := hn
  refine (functionPatterns_eq_emptyCell_iff hn ps r c).2 ?_
  have halign : ¬∃ p ∈ ps, AlignmentCovers p r c := by
    rintro ⟨p, hp, hcovers⟩
    obtain ⟨-, -, hrow, hcol⟩ := hps p hp
    omega
  simp only [halign, false_or]
  omega

/-! ### The default centre pairs (rule R82) -/

theorem refAlignmentPairs_default {v : Nat} (h1 : 1 ≤ v) (h40 : v ≤ 40) :
    refAlignmentPairs defaultRefData v = defaultAlignmentPairs v := by
  have hv : versions[v - 1]? = some v := by
    rw [versions, List.getElem?_map, List.getElem?_range (by omega), Option.map_some, Nat.sub_add_cancel h1]
  simp [refAlignmentPairs, defaultRefData, hv]

/-- The distance between the coordinates of a version (rule R82). -/
def alignmentStep (v : Nat) : Nat :=
  if v = 32 then 26 else 2 * ((4 * v + 2 * (v / 7 + 2) + 1) / (2 * (v / 7 + 2) - 2))

theorem mem_alignmentCoordinates {v a : Nat} :
    a ∈ alignmentCoordinates v ↔ a = 6 ∨ ∃ k ≤ v / 7, a = sideOf v - 7 - alignmentStep v * k := by
  change a ∈ 6 :: (List.range (v / 7 + 1)).map (fun i => sideOf v - 7 - alignmentStep v * (v / 7 - i)) ↔ _
  simp only [List.mem_cons, List.mem_map, List.mem_range]
  refine or_congr_right ⟨?_, ?_⟩
  · rintro ⟨i, -, rfl⟩
    exact ⟨v / 7 - i, Nat.sub_le _ _, rfl⟩
  · rintro ⟨k, hk, rfl⟩
    exact ⟨v / 7 - k, by omega, by rw [Nat.sub_sub_self hk]⟩

/-- Every version's distance is even and 12 or more, and leaves as much before the first coordinate after 6. -/
theorem alignmentStep_spec : ∀ v < 41, 2 ≤ v →
    alignmentStep v % 2 = 0 ∧ 12 ≤ alignmentStep v ∧ 18 + alignmentStep v * (v / 7) ≤ sideOf v - 7 := by
  decide

/-- The coordinates of a version are even, lie between 6 and N − 7, and are 12 or more apart. -/
theorem alignmentCoordinates_spaced {v a : Nat} (h2 : 2 ≤ v) (h40 : v ≤ 40) (ha : a ∈ alignmentCoordinates v) :
    a % 2 = 0 ∧ 6 ≤ a ∧ a ≤ sideOf v - 7 ∧ ∀ b ∈ alignmentCoordinates v, a = b ∨ a + 12 ≤ b ∨ b + 12 ≤ a := by
  obtain ⟨heven, hstep, hfit⟩ := alignmentStep_spec v (by omega) h2
  have hside : sideOf v = 4 * v + 17 := rfl
  have hfits : ∀ k ≤ v / 7, alignmentStep v * k ≤ alignmentStep v * (v / 7) := fun k hk => Nat.mul_le_mul_left _ hk
  have hapart : ∀ k l, k < l → alignmentStep v * k + alignmentStep v ≤ alignmentStep v * l := fun k l h =>
    Nat.mul_le_mul_left (alignmentStep v) h
  obtain rfl | ⟨k, hk, rfl⟩ := mem_alignmentCoordinates.1 ha
  · refine ⟨rfl, Nat.le_refl 6, by omega, fun b hb => ?_⟩
    obtain rfl | ⟨l, hl, rfl⟩ := mem_alignmentCoordinates.1 hb
    · exact .inl rfl
    · have := hfits l hl
      omega
  · have hkfits := hfits k hk
    have hkeven : alignmentStep v * k % 2 = 0 := by rw [Nat.mul_mod, heven, Nat.zero_mul]
    refine ⟨by omega, by omega, by omega, fun b hb => ?_⟩
    obtain rfl | ⟨l, hl, rfl⟩ := mem_alignmentCoordinates.1 hb
    · omega
    · have hlfits := hfits l hl
      rcases Nat.lt_trichotomy k l with h | rfl | h
      · have := hapart k l h
        omega
      · exact .inl rfl
      · have := hapart l k h
        omega

theorem first_mem_alignmentCoordinates (v : Nat) : 6 ∈ alignmentCoordinates v := mem_alignmentCoordinates.2 (.inl rfl)

theorem last_mem_alignmentCoordinates (v : Nat) : sideOf v - 7 ∈ alignmentCoordinates v :=
  mem_alignmentCoordinates.2 (.inr ⟨0, Nat.zero_le _, rfl⟩)

theorem mem_defaultAlignmentPairs {v : Nat} {p : Nat × Nat} (hp : p ∈ defaultAlignmentPairs v) :
    2 ≤ v ∧ (p.1 ∈ alignmentCoordinates v ∧ p.2 ∈ alignmentCoordinates v) ∧
      p ≠ (6, 6) ∧ p ≠ (6, sideOf v - 7) ∧ p ≠ (sideOf v - 7, 6) := by
  rw [defaultAlignmentPairs] at hp
  split at hp
  · cases hp
  · next hv =>
    obtain ⟨hpair, hkept⟩ := List.mem_filter.1 hp
    have hcoord : p.1 ∈ alignmentCoordinates v ∧ p.2 ∈ alignmentCoordinates v := by
      simp only [List.mem_flatMap, List.mem_map] at hpair
      obtain ⟨a, ha, b, hb, rfl⟩ := hpair
      exact ⟨ha, hb⟩
    exact ⟨by omega, hcoord, by simpa [not_or, and_assoc] using hkept⟩

/-- A coordinate of a default centre, by its distance from both ends. -/
structure DefaultCoordinate (n a : Nat) : Prop where
  even : a % 2 = 0
  low : a = 6 ∨ 18 ≤ a
  high : a = n - 7 ∨ a + 12 ≤ n - 7

theorem defaultCoordinate_of_mem {v a : Nat} (h2 : 2 ≤ v) (h40 : v ≤ 40) (ha : a ∈ alignmentCoordinates v) :
    DefaultCoordinate (sideOf v) a := by
  obtain ⟨heven, hlow, hhigh, hspaced⟩ := alignmentCoordinates_spaced h2 h40 ha
  have hfirst := hspaced 6 (first_mem_alignmentCoordinates v)
  have hlast := hspaced _ (last_mem_alignmentCoordinates v)
  exact ⟨heven, by omega, by omega⟩

/-- The cells of the three corners: finders, separators, format and version areas, the dark module. -/
abbrev InCorner (n r c : Nat) : Prop := (r ≤ 8 ∧ c ≤ 8) ∨ (r ≤ 8 ∧ n - 11 ≤ c) ∨ (n - 11 ≤ r ∧ c ≤ 8)

section
variable {v n : Nat} (hn : n = sideOf v) (h1 : 1 ≤ v) (h40 : v ≤ 40) {p : Nat × Nat}
  (hp : p ∈ refAlignmentPairs defaultRefData v) {r c : Nat} (hcovers : AlignmentCovers p r c)
include hn h1 h40 hp

theorem defaultCentre_coordinates : DefaultCoordinate n p.1 ∧ DefaultCoordinate n p.2 := by
  rw [refAlignmentPairs_default h1 h40] at hp
  obtain ⟨h2, ⟨hrow, hcol⟩, -⟩ := mem_defaultAlignmentPairs hp
  rw [hn]
  exact ⟨defaultCoordinate_of_mem h2 h40 hrow, defaultCoordinate_of_mem h2 h40 hcol⟩

include hcovers

/-- No default alignment pattern reaches a corner: the three centres that would are left out. -/
theorem not_inCorner_of_covered : ¬InCorner n r c := by
  obtain ⟨hrow, hcol⟩ := defaultCentre_coordinates hn h1 h40 hp
  rw [refAlignmentPairs_default h1 h40] at hp
  obtain ⟨h2, -, hfirst, htop, hleft⟩ := mem_defaultAlignmentPairs hp
  obtain ⟨-, hrowLow, hrowHigh⟩ := hrow
  obtain ⟨-, hcolLow, hcolHigh⟩ := hcol
  obtain ⟨a, b⟩ := p
  rw [← hn] at htop hleft
  simp only [ne_eq, Prod.mk.injEq] at hfirst htop hleft hrowLow hrowHigh hcolLow hcolHigh
  have hside : n = 4 * v + 17 := hn
  omega

omit hn in
/-- Two default alignment patterns share no cell. -/
theorem eq_of_covered {q : Nat × Nat} (hq : q ∈ refAlignmentPairs defaultRefData v) (hqc : AlignmentCovers q r c) :
    q = p := by
  rw [refAlignmentPairs_default h1 h40] at hp hq
  obtain ⟨h2, ⟨hprow, hpcol⟩, -⟩ := mem_defaultAlignmentPairs hp
  obtain ⟨-, ⟨hqrow, hqcol⟩, -⟩ := mem_defaultAlignmentPairs hq
  obtain ⟨-, -, -, hrows⟩ := alignmentCoordinates_spaced h2 h40 hqrow
  obtain ⟨-, -, -, hcols⟩ := alignmentCoordinates_spaced h2 h40 hqcol
  have hrow := hrows _ hprow
  have hcol := hcols _ hpcol
  exact Prod.ext (by omega) (by omega)

end

/-! ### The cells of each pattern with the default centre pairs -/

section
variable {v n : Nat} (hn : n = sideOf v) (h1 : 1 ≤ v) (h40 : v ≤ 40)
include hn

/-- The timing patterns are written last (rule R190). -/
theorem functionPatterns_timing (ps : List (Nat × Nat)) {i : Nat} (h8 : 8 ≤ i) (hi : i ≤ n - 9) :
    functionPatterns v ps 6 i = timingCode i ∧ functionPatterns v ps i 6 = timingCode i := by
  simp only [functionPatterns, ← hn, timing_apply]
  rw [if_pos ⟨rfl, h8, hi⟩, if_neg (by omega), if_pos ⟨rfl, h8, hi⟩]
  exact ⟨rfl, rfl⟩

include h1 h40

/-- A cell of a corner takes the code of the last step that writes it; no alignment pattern does. -/
theorem functionPatterns_corner {r c : Nat} (hcorner : InCorner n r c) :
    functionPatterns v (refAlignmentPairs defaultRefData v) r c =
      if TimingRow n r c then timingCode c else if TimingRow n c r then timingCode r
      else if VersionArea v n r c then reservedCell
      else if DarkCell n r c then patternForegroundCell
      else if FormatArea n r c then reservedCell
      else if SeparatorArea n r c then patternBackgroundCell
      else finders n (fun _ _ => emptyCell) r c := by
  have huncovered : ∀ p ∈ refAlignmentPairs defaultRefData v, ¬AlignmentCovers p r c := fun p hp hc =>
    not_inCorner_of_covered hn h1 h40 hp hc hcorner
  simp only [functionPatterns, ← hn, timing_apply, reserveVersion_apply, darkModule_apply, reserveFormat_apply,
    separators_apply, alignments_of_uncovered huncovered]

section
variable {r c : Nat}

theorem functionPatterns_of_versionArea (h : VersionArea v n r c) :
    functionPatterns v (refAlignmentPairs defaultRefData v) r c = reservedCell := by
  have hside : n = 4 * v + 17 := hn
  rw [functionPatterns_corner hn h1 h40 (by omega)]
  have hlater : ¬TimingRow n r c ∧ ¬TimingRow n c r := by
    omega
  simp only [hlater, if_false, if_pos h]

theorem functionPatterns_of_darkCell (h : DarkCell n r c) :
    functionPatterns v (refAlignmentPairs defaultRefData v) r c = patternForegroundCell := by
  have hside : n = 4 * v + 17 := hn
  rw [functionPatterns_corner hn h1 h40 (by omega)]
  have hlater : ¬TimingRow n r c ∧ ¬TimingRow n c r ∧ ¬VersionArea v n r c := by
    omega
  simp only [hlater, if_false, if_pos h]

theorem functionPatterns_of_formatArea (h : FormatArea n r c) :
    functionPatterns v (refAlignmentPairs defaultRefData v) r c = reservedCell := by
  have hside : n = 4 * v + 17 := hn
  rw [functionPatterns_corner hn h1 h40 (by omega)]
  have hlater : ¬TimingRow n r c ∧ ¬TimingRow n c r ∧ ¬VersionArea v n r c ∧ ¬DarkCell n r c := by
    rcases h with h | h | h | h <;> refine ⟨?_, ?_, ?_, ?_⟩ <;> omega
  simp only [hlater, if_false, if_pos h]

theorem functionPatterns_of_finderBlock (h : FinderBlock n r c) :
    functionPatterns v (refAlignmentPairs defaultRefData v) r c =
      if SeparatorArea n r c then patternBackgroundCell else finders n (fun _ _ => emptyCell) r c := by
  have hside : n = 4 * v + 17 := hn
  rw [functionPatterns_corner hn h1 h40 (by omega)]
  have hlater : ¬TimingRow n r c ∧ ¬TimingRow n c r ∧ ¬VersionArea v n r c ∧ ¬DarkCell n r c ∧ ¬FormatArea n r c := by
    rcases h with h | h | h <;> refine ⟨?_, ?_, ?_, ?_, ?_⟩ <;> omega
  simp only [hlater, if_false]

theorem functionPatterns_of_separatorArea (h : SeparatorArea n r c) :
    functionPatterns v (refAlignmentPairs defaultRefData v) r c = patternBackgroundCell := by
  have hside : n = 4 * v + 17 := hn
  have hblock : FinderBlock n r c := by
    rcases h with h | h | h | h | h | h <;> omega
  rw [functionPatterns_of_finderBlock hn h1 h40 hblock, if_pos h]

end

/-- A finder's cell, dr below and dc right of the finder's top-left cell (rules R192, R193). -/
theorem functionPatterns_finder {p : Nat × Nat} (hp : p = (0, 0) ∨ p = (0, n - 7) ∨ p = (n - 7, 0)) {dr dc : Nat}
    (hdr : dr < 7) (hdc : dc < 7) :
    functionPatterns v (refAlignmentPairs defaultRefData v) (p.1 + dr) (p.2 + dc) = finderCode dr dc := by
  have hside : n = 4 * v + 17 := hn
  have hblock : FinderBlock n (p.1 + dr) (p.2 + dc) := by
    rcases hp with rfl | rfl | rfl <;> omega
  have hseparators : ¬SeparatorArea n (p.1 + dr) (p.2 + dc) := by
    rcases hp with rfl | rfl | rfl <;> omega
  rw [functionPatterns_of_finderBlock hn h1 h40 hblock, if_neg hseparators, finders, finder_apply, finder_apply,
    finder_apply]
  rcases hp with rfl | rfl | rfl
  · rw [if_neg (by omega), if_neg (by omega), if_pos (by omega),
      Nat.add_sub_cancel_left, Nat.add_sub_cancel_left]
  · rw [if_neg (by omega), if_pos (by omega), Nat.add_sub_cancel_left,
      Nat.add_sub_cancel_left]
  · rw [if_pos (by omega), Nat.add_sub_cancel_left, Nat.add_sub_cancel_left]

/-- The code of an alignment pattern's cell; where timing runs through it, both rules give one code (rule R201). -/
theorem functionPatterns_alignment {p : Nat × Nat} (hp : p ∈ refAlignmentPairs defaultRefData v) {r c : Nat}
    (hcovers : AlignmentCovers p r c) :
    functionPatterns v (refAlignmentPairs defaultRefData v) r c = alignmentCode p r c := by
  have hside : n = 4 * v + 17 := hn
  have hclear := not_inCorner_of_covered hn h1 h40 hp hcovers
  have honly : ∀ q ∈ refAlignmentPairs defaultRefData v, AlignmentCovers q r c → q = p := fun _ hq hqc =>
    eq_of_covered h1 h40 hp hcovers hq hqc
  obtain ⟨⟨hrowEven, hrowLow, -⟩, hcolEven, hcolLow, -⟩ := defaultCentre_coordinates hn h1 h40 hp
  obtain ⟨hup, hdown, hleft, hright⟩ := hcovers
  simp only [functionPatterns, ← hn, timing_apply, reserveVersion_apply, darkModule_apply, reserveFormat_apply,
    alignments_of_covered hp ⟨hup, hdown, hleft, hright⟩ honly]
  rw [if_neg (c := VersionArea v n r c) (by omega),
    if_neg (c := DarkCell n r c) (by omega),
    if_neg (c := FormatArea n r c) (by omega)]
  split
  · next htiming =>
    obtain ⟨hr, -, -⟩ := htiming
    have hring : max ((r : Int) - p.1).natAbs ((c : Int) - p.2).natAbs = 1 ↔ ¬c % 2 = 0 := by omega
    simp only [timingCode, alignmentCode, hring, ite_not]
  · split
    · next htiming =>
      obtain ⟨hc, -, -⟩ := htiming
      have hring : max ((r : Int) - p.1).natAbs ((c : Int) - p.2).natAbs = 1 ↔ ¬r % 2 = 0 := by omega
      simp only [timingCode, alignmentCode, hring, ite_not]
    · rfl

end

/-- Settles O38: each cell by the last step that writes it. -/
theorem functionPatternCells : Obligations.FunctionPatternCells := by
  refine ⟨by decide, fun v n h1 h40 hn m hm => ?_⟩
  subst hm
  have hversion := fun {r c} => functionPatterns_of_versionArea hn h1 h40 (r := r) (c := c)
  have hformat := fun {r c} => functionPatterns_of_formatArea hn h1 h40 (r := r) (c := c)
  have hseparator := fun {r c} => functionPatterns_of_separatorArea hn h1 h40 (r := r) (c := c)
  simp only [VersionArea, FormatArea, SeparatorArea] at hversion hformat hseparator
  refine ⟨fun p hp dr hdr dc hdc => ?_, fun i hi => ?_, fun p hp dr hdr dc hdc => ?_, fun c hc => ?_, fun r hr => ?_,
    fun i hi => ?_, fun i hi => ?_, ?_, fun h7 i hi j hj => ?_, fun i h8 hi => ?_, fun r hr c hc => ?_⟩
  · exact functionPatterns_finder hn h1 h40 (by simpa using hp) hdr hdc
  · exact ⟨hseparator (by omega), hseparator (by omega), hseparator (by omega), hseparator (by omega),
      hseparator (by omega), hseparator (by omega)⟩
  · obtain ⟨⟨-, hrow, -⟩, -, hcol, -⟩ := defaultCentre_coordinates hn h1 h40 hp
    have hdist : ((p.1 + dr - 2 : Nat) : Int) - p.1 = dr - 2 ∧ ((p.2 + dc - 2 : Nat) : Int) - p.2 = dc - 2 := by omega
    rw [functionPatterns_alignment hn h1 h40 hp (by omega), alignmentCode, hdist.1, hdist.2]
  · simp only [List.mem_cons, List.not_mem_nil, or_false] at hc
    exact hformat (by omega)
  · simp only [List.mem_cons, List.not_mem_nil, or_false] at hr
    exact hformat (by omega)
  · exact hformat (by omega)
  · exact hformat (by omega)
  · exact functionPatterns_of_darkCell hn h1 h40 ⟨rfl, rfl⟩
  · exact ⟨hversion (by omega), hversion (by omega)⟩
  · exact functionPatterns_timing hn _ h8 hi
  · exact functionPatterns_eq_emptyCell_iff_area hn h1 hr hc _

end Sys2Proof.Machine

/-! FUNCPAT and PLACE (43_matrix.md rules R190, R202, R205 to R209): their faults in order, and what each leaves when it
completes. -/

namespace Sys2Proof.Machine

open Sys2Proof.Config

/-! ### The faults (rules R190, R205, R206, R267) -/

section
variable {s : State} (hv : 1 ≤ s.versionNat ∧ s.versionNat ≤ 40)
include hv

theorem funcpatEffect_of_badCentre {p : Nat × Nat} (hp : p ∈ refAlignmentPairs s.params.refdata s.versionNat)
    (hbad : centreOk (configuredSide s) p = false) : funcpatEffect s = .error ⟨.refdata, 2⟩ := by
  have hall : (refAlignmentPairs s.params.refdata s.versionNat).all (centreOk (sideOf s.versionNat)) = false :=
    List.all_eq_false.2 ⟨p, hp, by simpa [configuredSide] using hbad⟩
  rw [funcpatEffect, State.withVersion_legal _ hv, hall]
  rfl

theorem placeEffect_of_noStream (hs : s.streamValid = false) : placeEffect s = .error ⟨.sequence, 2⟩ := by
  rw [placeEffect, State.withVersion_legal _ hv, hs]
  rfl

theorem placeEffect_of_count (hs : s.streamValid = true)
    (hcount : emptyCount (configuredSide s) s.cell ≠ s.streamBits.toNat) :
    placeEffect s = .error ⟨.placement, BitVec.ofNat 16 (emptyCount (configuredSide s) s.cell)⟩ := by
  rw [placeEffect, State.withVersion_legal _ hv, hs, State.withMatrix_eq]
  exact if_pos hcount

end

/-- Settles O39: each check fails with the earlier ones passed. -/
theorem matrixFaultOrder : Obligations.MatrixFaultOrder := by
  intro s h1 h40
  refine ⟨fun ⟨p, hp, hbad⟩ => ?_, fun hs => ?_, fun hs hcount => ?_⟩
  · have hcentre : centreOk (configuredSide s) p = false := by
      rw [← Bool.not_eq_true, centreOk_iff]
      omega
    rw [exec, execFuncpat, funcpatEffect_of_badCentre ⟨h1, h40⟩ hp hcentre]
    rfl
  · rw [exec, execPlace, placeEffect_of_noStream ⟨h1, h40⟩ hs]
    rfl
  · rw [exec, execPlace, placeEffect_of_count ⟨h1, h40⟩ hs hcount]
    rfl

/-! ### FUNCPAT completed -/

/-- Below MATRIX the address space stands when no other window changes (rule R60). -/
theorem byteAt_below_matrix {s t : State} (hother : ∀ w ≠ .matrix, ∀ i, t.windowByte w i = s.windowByte w i) {a : Addr}
    (ha : a.toNat < 0x8000) : t.byteAt a = s.byteAt a := by
  cases hl : locate a with
  | register k => rw [byteAt_of_register t hl, byteAt_of_register s hl]
  | unmapped => rw [byteAt_of_unmapped t hl, byteAt_of_unmapped s hl]
  | window w i =>
    have hw : w ≠ .matrix := by
      rintro rfl
      have := (locate_eq_window_iff.1 hl).1
      simp only [Window.base] at this
      omega
    rw [byteAt_of_window t hl, byteAt_of_window s hl, State.windowRead, State.windowRead, hother w hw]

theorem exec_funcpat_of_ready {s : State} (hr : FuncpatReady s) :
    exec .funcpat s = .next (funcpatCommit s (configuredPatterns s)).complete := by
  rw [exec, execFuncpat, funcpatEffect_ok_iff.2 ⟨hr, rfl⟩, State.finish_ok]

/-- Settles O37: the commit is the whole array, and the patterns do not reach beyond N × N. -/
theorem funcpatCompletes : Obligations.FuncpatCompletes := by
  intro s hr
  refine ⟨_, exec_funcpat_of_ready hr, rfl, fun r hrow c hcol => ?_,
    fun a ha => byteAt_below_matrix (fun w hw i => ?_) ha⟩
  · have hcell : (funcpatCommit s (configuredPatterns s)).complete.cell r c = configuredPatterns s r c :=
      State.setWholeMatrix_cell s _ hrow hcol
    rw [hcell]
    split
    · rfl
    · next hout => exact functionPatterns_outside rfl hout hr.centres
  · cases w with
    | matrix => exact absurd rfl hw
    | _ => rfl

/-! ### The bits of the stream (rules R7, R205) -/

theorem getElem?_bin {w k : Nat} (hk : k < w) (x : Nat) : (bin w x)[k]? = some (x.testBit (w - 1 - k)) := by
  induction w generalizing k with
  | zero => omega
  | succ w ih =>
    cases k with
    | zero => rfl
    | succ k => rw [bin, List.getElem?_cons_succ, ih (by omega), show w + 1 - 1 - (k + 1) = w - 1 - k by omega]

theorem getElem?_bitsOfBytes {bs : List Byte} {k : Nat} {b : Byte} (hb : bs[k / 8]? = some b) :
    (bitsOfBytes bs)[k]? = some (b.getLsbD (7 - k % 8)) := by
  induction bs generalizing k with
  | nil => cases hb
  | cons x bs ih =>
    rw [bitsOfBytes, List.flatMap_cons]
    by_cases hk : k < 8
    · rw [Nat.div_eq_of_lt hk] at hb
      obtain rfl : x = b := by simpa using hb
      rw [List.getElem?_append_left (by rwa [length_bin]), getElem?_bin hk, Nat.mod_eq_of_lt hk]
      rfl
    · have hblock : k / 8 = (k - 8) / 8 + 1 := by omega
      rw [hblock, List.getElem?_cons_succ] at hb
      rw [List.getElem?_append_right (by rw [length_bin]; omega), length_bin, ← bitsOfBytes, ih hb,
        show (k - 8) % 8 = k % 8 by omega]

theorem getElem?_streamBitString {s : State} {k : Nat} (hk : k < s.streamBits.toNat) :
    s.streamBitString[k]? = some (s.streamBit k) := by
  have hbyte : (firstBytes s.streamByte (bytesFor s.streamBits.toNat))[k / 8]? = some (s.streamByte (k / 8)) := by
    rw [firstBytes, List.getElem?_map, List.getElem?_range (by rw [bytesFor]; omega), Option.map_some]
  exact getElem?_bitsOfBytes hbyte

/-! ### The cells PLACE writes (rules R205, R207) -/

/-- A list of writes to different elements: the k-th write's element holds its value. -/
theorem find_of_getElem? {w : Nat} {us : List (Nat × BitVec w)} (hnodup : (us.map Prod.fst).Nodup) {k i : Nat}
    {x : BitVec w} (hk : us[k]? = some (i, x)) : Memory.find us i = some x := by
  induction us generalizing k with
  | nil => cases hk
  | cons u us ih =>
    obtain ⟨j, y⟩ := u
    obtain ⟨hj, hus⟩ := List.nodup_cons.1 hnodup
    rw [Memory.find_cons]
    cases k with
    | zero =>
      obtain ⟨rfl, rfl⟩ : j = i ∧ y = x := by simpa using hk
      exact if_pos rfl
    | succ k =>
      rw [List.getElem?_cons_succ] at hk
      have hi : i ∈ us.map Prod.fst := List.mem_map_of_mem (List.mem_of_getElem? hk)
      rw [if_neg fun h : j = i => hj (h ▸ hi)]
      exact ih hus hk

theorem mem_emptyInOrder {v n : Nat} (hn : n = 4 * v + 17) {m : Matrix} {r c : Nat} :
    (r, c) ∈ emptyInOrder n m ↔ (r < n ∧ c < n ∧ c ≠ 6) ∧ m r c = emptyCell := by
  rw [emptyInOrder, List.mem_filter, mem_placeOrder hn, beq_iff_eq]

/-- PLACE visits no more Empty cells than it counts. -/
theorem length_emptyInOrder_le {v n : Nat} (hn : n = 4 * v + 17) (m : Matrix) :
    (emptyInOrder n m).length ≤ emptyCount n m := by
  have hsubset : placeOrder n ⊆ cellsOf n := fun _ hp =>
    have ⟨hr, hc, _⟩ := (mem_placeOrder hn).1 hp
    mem_cellsOf.2 ⟨hr, hc⟩
  rw [emptyInOrder, ← List.countP_eq_length_filter]
  exact ((nodup_placeOrder hn).subperm hsubset).countP_le _

section
variable {v n : Nat} (hn : n = 4 * v + 17) (h40 : v ≤ 40) {m : Matrix} {bits : Bits}
  (hbits : (emptyInOrder n m).length ≤ bits.length)
include hn h40

theorem nodup_emptyInOrder_indexes : ((emptyInOrder n m).map fun p => cellIndex p.1 p.2).Nodup := by
  refine ((nodup_placeOrder hn).filter _).map_on fun p hp q hq hpq => ?_
  obtain ⟨⟨-, hpcol, -⟩, -⟩ := (mem_emptyInOrder hn).1 hp
  obtain ⟨⟨-, hqcol, -⟩, -⟩ := (mem_emptyInOrder hn).1 hq
  have hside : n ≤ nMax := hn ▸ sideOf_le h40
  obtain ⟨hrow, hcol⟩ := (cellIndex_inj (by omega) (by omega)).1 hpq
  exact Prod.ext hrow hcol

omit hn h40 in
include hbits in
/-- With bits enough PLACE writes every Empty cell it visits. -/
theorem placements_indexes :
    (placements n m bits).map Prod.fst = (emptyInOrder n m).map fun p => cellIndex p.1 p.2 := by
  have hzip : placements n m bits =
      ((emptyInOrder n m).zip bits).map fun x => (cellIndex x.1.1 x.1.2, bitCell x.2) :=
    (List.map_zip_eq_zipWith (f := fun x : (Nat × Nat) × Bool => (cellIndex x.1.1 x.1.2, bitCell x.2))).symm
  conv_rhs => rw [← List.map_fst_zip hbits, List.map_map]
  rw [hzip, List.map_map]
  rfl

include hbits

theorem find_placements_of_getElem? {k : Nat} {p : Nat × Nat} {b : Bool} (hp : (emptyInOrder n m)[k]? = some p)
    (hb : bits[k]? = some b) : Memory.find (placements n m bits) (cellIndex p.1 p.2) = some (bitCell b) := by
  have hk : (placements n m bits)[k]? = some (cellIndex p.1 p.2, bitCell b) := by
    rw [placements, List.getElem?_zipWith, ← emptyInOrder, hp, hb]
  exact find_of_getElem? (placements_indexes hbits ▸ nodup_emptyInOrder_indexes hn h40) hk

theorem find_placements_of_not_mem {r c : Nat} (hc : c < nMax) (hrc : (r, c) ∉ emptyInOrder n m) :
    Memory.find (placements n m bits) (cellIndex r c) = none := by
  refine Memory.find_eq_none_of_forall_ne fun x hx hxi => hrc ?_
  have hindex : x.1 ∈ (emptyInOrder n m).map fun p => cellIndex p.1 p.2 :=
    placements_indexes hbits ▸ List.mem_map_of_mem hx
  obtain ⟨p, hp, hpx⟩ := List.mem_map.1 hindex
  obtain ⟨⟨-, hpcol, -⟩, -⟩ := (mem_emptyInOrder hn).1 hp
  have hside : n ≤ nMax := hn ▸ sideOf_le h40
  obtain ⟨rfl, rfl⟩ := (cellIndex_inj (by omega) hc).1 (hpx.trans hxi)
  exact hp

end

/-! ### PLACE completed (rules R205, R209, R211) -/

/-- MATRIX after PLACE. -/
def placedCell (s : State) (r c : Nat) : CellCode := (placeCommit s (configuredSide s) s.cell).complete.cell r c

theorem configuredSide_eq (s : State) : configuredSide s = 4 * s.versionNat + 17 := rfl

section
variable {s : State} (hs : s.buffersCanonical) (hr : PlaceReady s)
include hr

theorem exec_place_of_ready :
    exec .place s = .next (placeCommit s (configuredSide s) s.cell).complete := by
  rw [exec, execPlace, placeEffect_ok_iff.2 ⟨hr, rfl⟩, State.finish_ok]

/-- The stream has a bit for every Empty cell that PLACE visits (rule R206). -/
theorem length_emptyInOrder_le_streamBits :
    (emptyInOrder (configuredSide s) s.cell).length ≤ s.streamBits.toNat :=
  hr.count ▸ length_emptyInOrder_le (configuredSide_eq s) s.cell

theorem length_emptyInOrder_le_bits :
    (emptyInOrder (configuredSide s) s.cell).length ≤ s.streamBitString.length := by
  refine (length_emptyInOrder_le_streamBits hr).trans (Nat.le_of_not_lt fun h => ?_)
  have hbit := getElem?_streamBitString h
  rw [List.getElem?_eq_none (Nat.le_refl _)] at hbit
  cases hbit

include hs

omit hr in
theorem placedCell_eq (r c : Nat) :
    placedCell s r c =
      (Memory.find (placements (configuredSide s) s.cell s.streamBitString) (cellIndex r c)).getD (s.cell r c) := by
  obtain ⟨-, -, -, -, -, hmatrix⟩ := hs
  have hfind := Memory.find_commit (placements (configuredSide s) s.cell s.streamBitString) hmatrix.1 (cellIndex r c)
  rw [placedCell, State.cell, State.matrixCell, State.complete, placeCommit, hfind]
  cases Memory.find (placements (configuredSide s) s.cell s.streamBitString) (cellIndex r c) <;> rfl

theorem placedCell_of_getElem? {k : Nat} {p : Nat × Nat} (hp : (emptyInOrder (configuredSide s) s.cell)[k]? = some p) :
    placedCell s p.1 p.2 = bitCell (s.streamBit k) := by
  have hk : k < s.streamBits.toNat :=
    Nat.lt_of_lt_of_le (List.getElem?_eq_some_iff.1 hp).1 (length_emptyInOrder_le_streamBits hr)
  rw [placedCell_eq hs, find_placements_of_getElem? (configuredSide_eq s) hr.version.2
    (length_emptyInOrder_le_bits hr) hp (getElem?_streamBitString hk), Option.getD_some]

theorem placedCell_of_not_mem {r c : Nat} (hc : c < nMax) (hrc : (r, c) ∉ emptyInOrder (configuredSide s) s.cell) :
    placedCell s r c = s.cell r c := by
  rw [placedCell_eq hs, find_placements_of_not_mem (configuredSide_eq s) hr.version.2
    (length_emptyInOrder_le_bits hr) hc hrc, Option.getD_none]

end

/-- Settles O40: the commit writes the Empty cells in traversal order and no other. -/
theorem placeCompletes : Obligations.PlaceCompletes := by
  intro s hs hr
  refine ⟨_, exec_place_of_ready hr, rfl, fun k p hp => placedCell_of_getElem? hs hr hp,
    fun r _ c hc hrc => placedCell_of_not_mem hs hr hc hrc, fun a ha => byteAt_below_matrix (fun w hw i => ?_) ha⟩
  cases w with
  | matrix => exact absurd rfl hw
  | _ => rfl

theorem bitCell_ne_emptyCell (b : Bool) : bitCell b ≠ emptyCell := by
  cases b <;> decide

/-- Settles O42: a cell that was Empty lay outside column 6, so PLACE visited it and wrote a bit. -/
theorem noEmptyAfterPlace : Obligations.NoEmptyAfterPlace := by
  intro s hs hr h6
  refine ⟨_, exec_place_of_ready hr, rfl, fun r hrow c hcol => ?_⟩
  change placedCell s r c ≠ emptyCell
  by_cases hempty : s.cell r c = emptyCell
  · have hc6 : c ≠ 6 := fun h => h6 r hrow (h ▸ hempty)
    have hmem : (r, c) ∈ emptyInOrder (configuredSide s) s.cell :=
      (mem_emptyInOrder (configuredSide_eq s)).2 ⟨⟨hrow, hcol, hc6⟩, hempty⟩
    obtain ⟨k, hk⟩ := List.getElem?_of_mem hmem
    exact placedCell_of_getElem? hs hr hk ▸ bitCell_ne_emptyCell _
  · have hside : configuredSide s ≤ nMax := sideOf_le hr.version.2
    have hstands : (r, c) ∉ emptyInOrder (configuredSide s) s.cell := fun h =>
      hempty ((mem_emptyInOrder (configuredSide_eq s)).1 h).2
    rwa [placedCell_of_not_mem hs hr (by omega) hstands]

end Sys2Proof.Machine

/-! The four penalty rules (44_mask.md rules R223 to R227): each sum of the mask engine as a count of the runs, windows and
cells its rule speaks of, and the bounds that follow from the counts. -/

namespace Sys2Proof.Machine

open Sys2Proof.Config

/-! ### Sums that count -/

/-- A score of k for every member that meets p is k times their number. -/
theorem sum_map_ite_eq_mul_length {α : Type} (p : α → Bool) (k : Nat) (l : List α) :
    (l.map fun x => if p x then k else 0).sum = k * (l.filter p).length := by
  rw [List.sum_map_ite]
  simp [Nat.mul_comm]

/-- The cells of N × N summed row by row. -/
theorem sum_map_cellsOf (n : Nat) (f : Nat → Nat → Nat) :
    ((cellsOf n).map fun p => f p.1 p.2).sum = ((List.range n).map fun i => ((List.range n).map (f i)).sum).sum := by
  simp [cellsOf, List.flatMap_def, Function.comp_def]

@[simp] theorem length_cellsOf (n : Nat) : (cellsOf n).length = n * n := by
  simp [cellsOf]

@[simp] theorem length_linesOf (n : Nat) (e : Colours) : (linesOf n e).length = 2 * n := by
  simp [linesOf, Nat.two_mul]

theorem length_of_mem_linesOf {n : Nat} {e : Colours} {line : List (Option Colour)} (h : line ∈ linesOf n e) :
    line.length = n := by
  obtain h | h := List.mem_append.1 h <;> obtain ⟨i, -, rfl⟩ := List.mem_map.1 h <;> simp

/-- A score of the lines is at most 2N times the most a line of N cells scores. -/
theorem sum_map_linesOf_le {n k : Nat} {e : Colours} {f : List (Option Colour) → Nat}
    (h : ∀ line, line.length = n → f line ≤ k) : ((linesOf n e).map f).sum ≤ 2 * n * k := by
  have hle : ∀ x ∈ (linesOf n e).map f, x ≤ k :=
    List.forall_mem_map.2 fun line hline => h line (length_of_mem_linesOf hline)
  simpa using List.sum_le_card_nsmul _ k hle

/-! ### Runs (rule R223) -/

theorem lineRuns_replicate (x : Option Colour) {len : Nat} (h : 0 < len) :
    lineRuns (List.replicate len x) = [List.replicate len x] :=
  List.splitBy_of_isChain (by simp; omega) (List.isChain_replicate_of_rel len (by simp))

/-- A run ends where the next cell is another. -/
theorem lineRuns_replicate_append {x y : Option Colour} (hxy : y ≠ x) {len : Nat} (h : 0 < len)
    (rest : List (Option Colour)) :
    lineRuns (List.replicate len x ++ y :: rest) = List.replicate len x :: lineRuns (y :: rest) := by
  have hlast : ∀ z ∈ (List.replicate len x).getLast?, (z == y) = false := fun z hz => by
    obtain ⟨-, rfl⟩ : len ≠ 0 ∧ x = z := by simpa [List.getLast?_replicate] using hz
    simpa using hxy.symm
  rw [lineRuns, List.splitBy_append_cons _ hlast, ← lineRuns, lineRuns_replicate x h]
  rfl

theorem lineRunScore_replicate (x : Option Colour) {len : Nat} (h : 0 < len) :
    lineRunScore (List.replicate len x) = runScore x len := by
  have hhead : (List.replicate len x).head? ≠ some none ↔ x.isSome = true := by
    cases x <;> simp [List.head?_replicate, h.ne']
  simp only [lineRunScore, runScore, hhead, List.length_replicate, Bool.and_eq_true, Nat.ble_eq, and_comm]

/-- The scan of a line with a run of `len` cells open scores the runs of those cells and the line together. -/
theorem runPenalty_eq (x : Option Colour) {len : Nat} (h : 0 < len) (line : List (Option Colour)) :
    runPenalty x len line = ((lineRuns (List.replicate len x ++ line)).map lineRunScore).sum := by
  induction line generalizing x len with
  | nil => simp [runPenalty, lineRuns_replicate x h, lineRunScore_replicate x h]
  | cons y rest ih =>
    rw [runPenalty]
    split
    · next hy =>
      subst hy
      rw [ih y len.succ_pos, List.replicate_succ', List.append_assoc]
      rfl
    · next hy =>
      rw [ih y Nat.one_pos, lineRuns_replicate_append hy h, List.map_cons, List.sum_cons, lineRunScore_replicate x h]
      rfl

/-- P1 of a line: its first cell opens the first run, and the empty run before it scores nothing. -/
theorem runPenalty_none_eq (line : List (Option Colour)) :
    runPenalty none 0 line = ((lineRuns line).map lineRunScore).sum := by
  cases line with
  | nil => rfl
  | cons x rest =>
    have hopen : runPenalty none 0 (x :: rest) = runPenalty x 1 rest := by
      rw [runPenalty]
      split
      · next hx => rw [hx]
      · exact Nat.zero_add _
    rw [hopen, runPenalty_eq x Nat.one_pos]
    rfl

theorem penaltyRuns_eq (n : Nat) (e : Colours) :
    penaltyRuns n e = ((linesOf n e).map fun line => ((lineRuns line).map lineRunScore).sum).sum := by
  rw [penaltyRuns, funext runPenalty_none_eq]

theorem runScore_le (x : Option Colour) (len : Nat) : runScore x len ≤ len - 2 := by
  rw [runScore]
  split <;> omega

theorem runPenalty_le (x : Option Colour) (len : Nat) (line : List (Option Colour)) :
    runPenalty x len line ≤ len + line.length - 2 := by
  induction line generalizing x len with
  | nil => exact runScore_le x len
  | cons y rest ih =>
    have hrun := runScore_le x len
    have hsame := ih x (len + 1)
    have hnext := ih y 1
    rw [runPenalty, List.length_cons]
    split <;> omega

theorem penaltyRuns_le (n : Nat) (e : Colours) : penaltyRuns n e ≤ 2 * n * (n - 2) :=
  sum_map_linesOf_le fun line hline => by simpa [hline] using runPenalty_le none 0 line

/-! ### Blocks (rule R224) -/

/-- The 2 × 2 window with top-left cell p has one colour. -/
def uniformWindow (e : Colours) (p : Nat × Nat) : Bool :=
  (e p.1 p.2).isSome && e p.1 (p.2 + 1) == e p.1 p.2 && e (p.1 + 1) p.2 == e p.1 p.2 &&
    e (p.1 + 1) (p.2 + 1) == e p.1 p.2

theorem penaltyBlocks_eq (n : Nat) (e : Colours) :
    penaltyBlocks n e = 3 * ((cellsOf (n - 1)).filter (uniformWindow e)).length := by
  rw [← sum_map_ite_eq_mul_length]
  exact (sum_map_cellsOf (n - 1) (blockPenalty e)).symm

theorem penaltyBlocks_le (n : Nat) (e : Colours) : penaltyBlocks n e ≤ 3 * (n - 1) ^ 2 := by
  rw [penaltyBlocks_eq, Nat.pow_two, ← length_cellsOf]
  exact Nat.mul_le_mul_left 3 (List.length_filter_le _ _)

/-! ### Windows (rule R225) -/

theorem colourDigit_injective : Function.Injective colourDigit := by
  rintro (_ | _ | _) (_ | _ | _) <;> simp [colourDigit]

/-- PAT and PAT2 are the strings rule R225 writes. -/
theorem windowPatterns_eq (p3 : P3Second) :
    (windowPatterns p3).map (·.map some) = [finderLike, finderLike2 p3].map (·.map colourDigit) := by
  cases p3 <;> rfl

/-- The window equals PAT or PAT2, digit by digit. -/
def windowMatches (p3 : P3Second) (w : List (Option Colour)) : Bool :=
  (windowPatterns p3).any fun pat => w.map colourDigit == pat.map some

theorem windowMatches_eq (p3 : P3Second) (w : List (Option Colour)) :
    windowMatches p3 w = (w == finderLike || w == finderLike2 p3) := by
  have hdigits : ∀ v, (w.map colourDigit == v.map colourDigit) = (w == v) := fun v => by
    rw [Bool.eq_iff_iff, beq_iff_eq, beq_iff_eq, (List.map_injective_iff.2 colourDigit_injective).eq_iff]
  calc
    windowMatches p3 w = ((windowPatterns p3).map (·.map some)).any (w.map colourDigit == ·) := by
      rw [windowMatches, List.any_map]; rfl
    _ = (w == finderLike || w == finderLike2 p3) := by simp [windowPatterns_eq, hdigits]

theorem length_of_windowMatches {p3 : P3Second} {w : List (Option Colour)} (h : windowMatches p3 w = true) :
    w.length = 11 := by
  rw [windowMatches_eq, Bool.or_eq_true, beq_iff_eq, beq_iff_eq] at h
  obtain rfl | rfl := h
  · rfl
  · cases p3 <;> rfl

theorem lineMatches_eq (p3 : P3Second) (line : List (Option Colour)) :
    lineMatches p3 line = (List.range (line.length - 10)).countP fun t => windowMatches p3 ((line.drop t).take 11) :=
  List.countP_eq_length_filter.symm

theorem lineMatches_cons (p3 : P3Second) (x : Option Colour) (rest : List (Option Colour)) :
    lineMatches p3 (x :: rest) = (if windowMatches p3 ((x :: rest).take 11) then 1 else 0) + lineMatches p3 rest := by
  rw [lineMatches_eq, lineMatches_eq, List.length_cons]
  by_cases hlen : 10 ≤ rest.length
  · rw [Nat.sub_add_comm hlen, List.range_succ_eq_map, List.countP_cons, List.countP_map, Nat.add_comm]
    rfl
  · have hshort : ¬windowMatches p3 ((x :: rest).take 11) = true := fun h => by
      have := length_of_windowMatches h
      rw [List.length_take, List.length_cons] at this
      omega
    rw [if_neg hshort, Nat.sub_eq_zero_of_le (by omega), Nat.sub_eq_zero_of_le (by omega)]
    rfl

theorem windowPenalty_eq (p3 : P3Second) (line : List (Option Colour)) :
    windowPenalty p3 line = 40 * lineMatches p3 line := by
  induction line with
  | nil => rfl
  | cons x rest ih =>
    rw [windowPenalty, ih, lineMatches_cons, windowMatches_eq, Nat.mul_add]
    split <;> rfl

theorem penaltyWindows_eq (p3 : P3Second) (n : Nat) (e : Colours) :
    penaltyWindows p3 n e = 40 * ((linesOf n e).map (lineMatches p3)).sum := by
  rw [penaltyWindows, funext (windowPenalty_eq p3), List.sum_map_mul_left]

theorem lineMatches_le (p3 : P3Second) (line : List (Option Colour)) : lineMatches p3 line ≤ line.length - 10 :=
  (List.length_filter_le _ _).trans_eq List.length_range

theorem penaltyWindows_le (p3 : P3Second) (n : Nat) (e : Colours) :
    penaltyWindows p3 n e ≤ 40 * (2 * n * (n - 10)) := by
  rw [penaltyWindows_eq]
  exact Nat.mul_le_mul_left 40 (sum_map_linesOf_le fun line hline => hline ▸ lineMatches_le p3 line)

/-! ### Balance (rules R226, R227) -/

theorem balanceScore_eq (pct : Nat) :
    balanceScore pct = 10 * min (((pct / 5 : Nat) : Int) - 10).natAbs (((pct / 5 : Nat) : Int) - 9).natAbs := by
  simp only [balanceScore]
  omega

theorem balanceScore_le {pct : Nat} (h : pct ≤ 100) : balanceScore pct ≤ 100 := by
  simp only [balanceScore]
  omega

theorem balanceScore_eq_zero_iff (pct : Nat) : balanceScore pct = 0 ↔ 45 ≤ pct ∧ pct < 55 := by
  simp only [balanceScore]
  omega

/-- A part of a whole is at most 100 percent of it. -/
theorem percent_le {dark whole : Nat} (h : dark ≤ whole) : 100 * dark / whole ≤ 100 :=
  Nat.div_le_of_le_mul (Nat.mul_comm whole 100 ▸ Nat.mul_le_mul_left 100 h)

theorem percent_div_five (dark whole : Nat) : 100 * dark / whole / 5 = 20 * dark / whole := by
  rw [Nat.div_div_eq_div_mul, Nat.mul_comm whole 5, show 100 * dark = 5 * (20 * dark) by omega,
    Nat.mul_div_mul_left _ _ (by decide)]

theorem penaltyBalance_le (n : Nat) (e : Colours) : penaltyBalance n e ≤ 100 :=
  balanceScore_le (percent_le (length_cellsOf n ▸ List.countP_le_length))

/-! ### Settled statements -/

/-- Settles O43: each sum as the count its rule speaks of. -/
theorem penaltyRules : Obligations.PenaltyRules := by
  refine ⟨by decide, rfl, rfl, rfl, fun p3 n m e he _ => ?_⟩
  subst he
  refine ⟨penaltyRuns_eq n _, penaltyBlocks_eq n _, penaltyWindows_eq p3 n _, fun f hf => ?_⟩
  rw [hf, ← List.countP_eq_length_filter]
  exact balanceScore_eq _

/-- The bounds of rule R40 on a score. -/
theorem scoreOf_le {n : Nat} (hn : n ≤ 177) (p3 : P3Second) (w : Matrix) :
    (scoreOf p3 n w).p1 ≤ 2 * 177 * 175 ∧ (scoreOf p3 n w).p2 ≤ 3 * 176 ^ 2 ∧
      (scoreOf p3 n w).p3 ≤ 40 * (2 * 177 * 167) ∧ (scoreOf p3 n w).p4 ≤ 100 := by
  refine ⟨(penaltyRuns_le n _).trans ?_, (penaltyBlocks_le n _).trans ?_, (penaltyWindows_le p3 n _).trans ?_,
    penaltyBalance_le n _⟩
  · exact Nat.mul_le_mul (Nat.mul_le_mul_left 2 hn) (by omega)
  · exact Nat.mul_le_mul_left 3 (Nat.pow_le_pow_left (by omega) 2)
  · exact Nat.mul_le_mul_left 40 (Nat.mul_le_mul (Nat.mul_le_mul_left 2 hn) (by omega))

/-- Settles O44: the bounds by N, which is at most 177, and the balance rule on percentages. -/
theorem penaltyBounds : Obligations.PenaltyBounds := by
  refine ⟨fun p3 _ w _ hn => scoreOf_le hn p3 w, fun n dark pct _ hdark hpct => ?_⟩
  subst hpct
  exact ⟨percent_div_five dark _, balanceScore_le (percent_le hdark), balanceScore_eq_zero_iff _⟩

end Sys2Proof.Machine

/-! The masks (44_mask.md rules R220 to R222, R233, R235): what a mask does to a cell, which cells a score depends on, and the
fault on the first colourless cell. -/

namespace Sys2Proof.Machine

open Sys2Proof.Config

/-! ### A mask by its cells (rules R221, R222) -/

section
variable {n a r c : Nat} {w w' : Matrix}

theorem applyMask_apply (n a : Nat) (w : Matrix) (r c : Nat) :
    applyMask n a w r c = if (r < n ∧ c < n) ∧ maskPred a r c = true then flipData (w r c) else w r c := by
  simp [applyMask]

theorem applyMask_outside (h : ¬(r < n ∧ c < n)) : applyMask n a w r c = w r c := by
  rw [applyMask_apply, if_neg fun hin => h hin.1]

theorem applyMask_of_pred (hr : r < n) (hc : c < n) (h : maskPred a r c = true) :
    applyMask n a w r c = flipData (w r c) := by
  rw [applyMask_apply, if_pos ⟨⟨hr, hc⟩, h⟩]

theorem applyMask_of_not_pred (h : maskPred a r c = false) : applyMask n a w r c = w r c := by
  rw [applyMask_apply, if_neg fun hin => Bool.noConfusion (h.symm.trans hin.2)]

/-- A mask reads no other cell than the one it gives. -/
theorem applyMask_congr (a : Nat) (h : w r c = w' r c) : applyMask n a w r c = applyMask n a w' r c := by
  rw [applyMask_apply, applyMask_apply, h]

end

theorem flipData_flipData : ∀ x : CellCode, flipData (flipData x) = x := by decide

theorem flipData_of_not_data {x : CellCode} (hb : x ≠ backgroundCell) (hf : x ≠ foregroundCell) : flipData x = x := by
  rw [flipData, if_neg (by simpa using hb), if_neg (by simpa using hf)]

/-- A mask gives no colourless code (rules R220, R233). -/
theorem flipData_scorable : ∀ x : CellCode, x ≠ 0 ∧ x ≠ 6 ∧ x ≠ 7 → flipData x ≠ 0 ∧ flipData x ≠ 6 ∧ flipData x ≠ 7 := by
  decide

theorem applyMask_scorable {n a r c : Nat} {w : Matrix} (h : w r c ≠ 0 ∧ w r c ≠ 6 ∧ w r c ≠ 7) :
    applyMask n a w r c ≠ 0 ∧ applyMask n a w r c ≠ 6 ∧ applyMask n a w r c ≠ 7 := by
  rw [applyMask_apply]
  split
  · exact flipData_scorable _ h
  · exact h

/-- Settles O45: a mask by its cells, and flipping data twice gives it back. -/
theorem maskLaws : Obligations.MaskLaws := by
  refine ⟨fun i j => by simp [maskPred], fun n a b m r c => ⟨?_, ?_, fun hb hf => ?_, applyMask_outside,
    fun hr hc hp hb => ?_, fun hr hc hp hf => ?_, applyMask_of_not_pred⟩⟩
  · simp only [applyMask_apply]
    split
    · exact flipData_flipData _
    · rfl
  · simp only [applyMask_apply]
    split_ifs <;> rfl
  · rw [applyMask_apply, flipData_of_not_data hb hf, ite_self]
  · rw [applyMask_of_pred hr hc hp, hb]
    rfl
  · rw [applyMask_of_pred hr hc hp, hf]
    rfl

/-! ### A score reads the cells of N × N only (rules R223 to R228) -/

section
variable {n : Nat} {e e' : Colours} (h : ∀ r < n, ∀ c < n, e r c = e' r c)
include h

theorem linesOf_congr : linesOf n e = linesOf n e' := by
  have hrow : ∀ i ∈ List.range n, ((List.range n).map fun j => e i j) = (List.range n).map fun j => e' i j := fun i hi =>
    List.map_congr_left fun j hj => h i (List.mem_range.1 hi) j (List.mem_range.1 hj)
  have hcolumn : ∀ j ∈ List.range n, ((List.range n).map fun i => e i j) = (List.range n).map fun i => e' i j :=
    fun j hj => List.map_congr_left fun i hi => h i (List.mem_range.1 hi) j (List.mem_range.1 hj)
  rw [linesOf, linesOf, List.map_congr_left hrow, List.map_congr_left hcolumn]

theorem penaltyBlocks_congr : penaltyBlocks n e = penaltyBlocks n e' := by
  rw [penaltyBlocks_eq, penaltyBlocks_eq]
  congr 2
  refine List.filter_congr fun ⟨i, j⟩ hp => ?_
  have hwindow := mem_cellsOf.1 hp
  simp only [uniformWindow]
  rw [h i (by omega) j (by omega), h i (by omega) (j + 1) (by omega), h (i + 1) (by omega) j (by omega),
    h (i + 1) (by omega) (j + 1) (by omega)]

theorem darkCount_congr : darkCount n e = darkCount n e' :=
  List.countP_congr fun ⟨i, j⟩ hp => by
    obtain ⟨hi, hj⟩ := mem_cellsOf.1 hp
    rw [h i hi j hj]

end

theorem scoreOf_congr {n : Nat} {w w' : Matrix} (p3 : P3Second) (h : ∀ r < n, ∀ c < n, w r c = w' r c) :
    scoreOf p3 n w = scoreOf p3 n w' := by
  have he : ∀ r < n, ∀ c < n, effColour (w r c) = effColour (w' r c) := fun r hr c hc => congrArg effColour (h r hr c hc)
  simp only [scoreOf, penaltyRuns, penaltyWindows, penaltyBalance]
  rw [linesOf_congr he, penaltyBlocks_congr he, darkCount_congr he]

/-! ### The first colourless cell (rules R220, R267) -/

/-- Row-major order. -/
def rowMajor (p q : Nat × Nat) : Prop := p.1 < q.1 ∨ (p.1 = q.1 ∧ p.2 < q.2)

theorem cellsOf_rowMajor (n : Nat) : (cellsOf n).Pairwise rowMajor := by
  refine List.pairwise_flatMap.2 ⟨fun i _ => ?_, List.pairwise_lt_range.imp fun {i j} hij p hp q hq => ?_⟩
  · exact List.pairwise_map.2 (List.pairwise_lt_range.imp fun hlt => .inr ⟨rfl, hlt⟩)
  · obtain ⟨_, -, rfl⟩ := List.mem_map.1 hp
    obtain ⟨_, -, rfl⟩ := List.mem_map.1 hq
    exact .inl hij

/-- In an ordered list the search finds the member that no earlier one beats. -/
theorem find?_eq_some_of_pairwise {α : Type} {R : α → α → Prop} {p : α → Bool} {l : List α} (hl : l.Pairwise R) {x : α}
    (hx : x ∈ l) (hpx : p x = true) (hbefore : ∀ y ∈ l, R y x → p y = false) : l.find? p = some x := by
  induction l with
  | nil => cases hx
  | cons y l ih =>
    obtain ⟨hy, hl⟩ := List.pairwise_cons.1 hl
    obtain rfl | hx := List.mem_cons.1 hx
    · exact List.find?_cons_of_pos hpx
    · rw [List.find?_cons_of_neg (by simp [hbefore y List.mem_cons_self (hy x hx)])]
      exact ih hl hx fun z hz => hbefore z (List.mem_cons_of_mem y hz)

theorem withColours_of_first {n r c : Nat} {m : Matrix} (hr : r < n) (hc : c < n)
    (hcell : m r c = 0 ∨ m r c = 6 ∨ m r c = 7)
    (hbefore : ∀ r' < n, ∀ c' < n, r' < r ∨ (r' = r ∧ c' < c) → m r' c' ≠ 0 ∧ m r' c' ≠ 6 ∧ m r' c' ≠ 7) (k : Effect) :
    withColours n m k = .error ⟨.cell, BitVec.ofNat 16 (cellIndex r c)⟩ := by
  have hfind : (cellsOf n).find? (fun p => m p.1 p.2 == 0 || m p.1 p.2 == 6 || m p.1 p.2 == 7) = some (r, c) := by
    refine find?_eq_some_of_pairwise (cellsOf_rowMajor n) (mem_cellsOf.2 ⟨hr, hc⟩) (by simpa [or_assoc] using hcell) ?_
    rintro ⟨r', c'⟩ hp hlt
    obtain ⟨hr', hc'⟩ := mem_cellsOf.1 hp
    simpa [and_assoc] using hbefore r' hr' c' hc' hlt
  rw [withColours, hfind]

/-- The opening checks of the mask engine's commands, at a colourless cell. -/
theorem masked_of_first {s : State} {r c : Nat} (hv : 1 ≤ s.versionNat ∧ s.versionNat ≤ 40) (hr : r < configuredSide s)
    (hc : c < configuredSide s) (hcell : s.cell r c = 0 ∨ s.cell r c = 6 ∨ s.cell r c = 7)
    (hbefore : ∀ r' < configuredSide s, ∀ c' < configuredSide s, r' < r ∨ (r' = r ∧ c' < c) →
      s.cell r' c' ≠ 0 ∧ s.cell r' c' ≠ 6 ∧ s.cell r' c' ≠ 7) (k : Nat → Matrix → Effect) :
    (s.withVersion fun v => s.withMatrix (sideOf v) fun w => withColours (sideOf v) w (k (sideOf v) w)) =
      .error ⟨.cell, BitVec.ofNat 16 (177 * r + c)⟩ := by
  rw [State.withVersion_legal _ hv, State.withMatrix_eq]
  exact withColours_of_first hr hc hcell hbefore _

/-- Settles O49: the three commands share the check. -/
theorem maskFaultsOnFirstColourlessCell : Obligations.MaskFaultsOnFirstColourlessCell := by
  intro s r c h1 h40 hr hc hcell hbefore
  have hfault := masked_of_first ⟨h1, h40⟩ hr hc hcell hbefore
  refine ⟨fun m hm => ?_, ?_, fun m hm => ?_⟩
  · rw [exec, execPenalty, penaltyEffect, (penaltyArgLegal_iff m).2 hm]
    exact congrArg (s.finish _) (hfault fun n w => .ok (s.setPenalties (scoreOf s.params.p3Second n (penaltyMatrix n m w))))
  · rw [exec, execMasksel]
    exact congrArg (s.finish _) (hfault fun n w => .ok (maskselCommit s n w (selectMask s.params.p3Second n w)))
  · rw [exec, execMaskapply, maskapplyEffect, (maskIndexLegal_iff m).2 hm]
    exact congrArg (s.finish _) (hfault fun n w => .ok (s.maskMatrix n m.toNat w))

end Sys2Proof.Machine

/-! PENALTY, MASKSEL and MASKAPPLY completed (44_mask.md rules R228 to R234): the penalty registers hold the score without
wrapping, the scan selects the first least total, and MATRIX takes the candidate. -/

namespace Sys2Proof.Machine

open Sys2Proof.Config

/-! ### The penalty registers (rules R40, R227) -/

/-- A score of a symbol fits the 32-bit registers, and so does its total. -/
theorem scoreOf_total_lt {n : Nat} (hn : n ≤ nMax) (p3 : P3Second) (w : Matrix) :
    (scoreOf p3 n w).total < 2 ^ 32 := by
  obtain ⟨hp1, hp2, hp3, hp4⟩ := scoreOf_le hn p3 w
  rw [Score.total]
  omega

theorem configuredSide_le {s : State} (hr : MaskReady s) : configuredSide s ≤ nMax := sideOf_le hr.version.2

theorem configuredSide_congr {s s' : State} (h : s'.version = s.version) : configuredSide s' = configuredSide s := by
  rw [configuredSide, configuredSide, State.versionNat, State.versionNat, h]

/-- The penalty registers of `t` hold the score x. -/
structure State.HoldsScore (t : State) (x : Score) : Prop where
  pen1 : t.pen1.toNat = x.p1
  pen2 : t.pen2.toNat = x.p2
  pen3 : t.pen3.toNat = x.p3
  pen4 : t.pen4.toNat = x.p4
  penTotal : t.penTotal.toNat = x.total

theorem setPenalties_holdsScore (s : State) {x : Score} (h : x.total < 2 ^ 32) : (s.setPenalties x).HoldsScore x := by
  have hx : x.total = x.p1 + x.p2 + x.p3 + x.p4 := rfl
  constructor <;> exact Nat.mod_eq_of_lt (by omega)

/-! ### What stands in the address space (rule R60) -/

/-- `t` has the buffers of `s` below MATRIX, and the draws of the unwritten bytes. -/
structure SameBuffers (s t : State) : Prop where
  msg : t.msg = s.msg
  dcw : t.dcw = s.dcw
  stream : t.stream = s.stream
  rsbuf : t.rsbuf = s.rsbuf
  rsec : t.rsec = s.rsec
  epoch : t.epoch = s.epoch

section
variable {s t : State} (h : SameBuffers s t)
include h

theorem SameBuffers.draw : t.draw = s.draw := by
  funext w i
  rw [State.draw, State.draw, h.epoch]

theorem SameBuffers.windowByte (w : Window) (hw : w ≠ .matrix) (i : Nat) : t.windowByte w i = s.windowByte w i := by
  cases w with
  | matrix => exact absurd rfl hw
  | msg => rw [State.windowByte, State.windowByte, State.msgByte, State.msgByte, h.msg, h.draw]
  | dcw => rw [State.windowByte, State.windowByte, State.dcwByte, State.dcwByte, h.dcw, h.draw]
  | stream => rw [State.windowByte, State.windowByte, State.streamByte, State.streamByte, h.stream, h.draw]
  | rsbuf => rw [State.windowByte, State.windowByte, State.rsbufByte, State.rsbufByte, h.rsbuf, h.draw]
  | rsec => rw [State.windowByte, State.windowByte, State.rsecByte, State.rsecByte, h.rsec, h.draw]

theorem SameBuffers.matrixCell (hmatrix : t.matrix = s.matrix) : t.matrixCell = s.matrixCell := by
  funext i
  rw [State.matrixCell, State.matrixCell, hmatrix, h.draw]

theorem SameBuffers.byteAt (hmatrix : t.matrix = s.matrix) (a : Addr) : t.byteAt a = s.byteAt a := by
  have hbyte : ∀ w i, t.windowByte w i = s.windowByte w i := fun w i => by
    by_cases hw : w = .matrix
    · rw [hw, State.windowByte, State.windowByte, h.matrixCell hmatrix]
    · exact h.windowByte w hw i
  simp only [State.byteAt, State.windowRead, hbyte]

end

/-! ### The scan (rule R231) -/

/-- Among the totals of index below k, b has the least and is the first to have it. -/
structure FirstLeast (t : Nat → Nat) (k b : Nat) : Prop where
  lt : b < k
  le : ∀ m < k, t b ≤ t m
  first : ∀ m < b, t b < t m

/-- The next index wins only with a total strictly less. -/
theorem FirstLeast.step {t : Nat → Nat} {k b : Nat} (h : FirstLeast t k b) :
    FirstLeast t (k + 1) (if t k < t b then k else b) := by
  have hlt := h.lt
  split
  · next hk =>
    have hall : ∀ m < k, t k < t m := fun m hm => Nat.lt_of_lt_of_le hk (h.le m hm)
    refine ⟨k.lt_add_one, fun m hm => ?_, hall⟩
    obtain hm | rfl := Nat.lt_succ_iff_lt_or_eq.1 hm
    · exact (hall m hm).le
    · exact Nat.le_refl _
  · next hk =>
    refine ⟨Nat.lt_succ_of_lt hlt, fun m hm => ?_, h.first⟩
    obtain hm | rfl := Nat.lt_succ_iff_lt_or_eq.1 hm
    · exact h.le m hm
    · exact Nat.le_of_not_lt hk

section
variable (p3 : P3Second) (n : Nat) (w : Matrix)

/-- The total of the candidate of mask m (rule R230). -/
def maskTotal (m : Nat) : Nat := (candidate p3 n w m).score.total

theorem better_candidate (b k : Nat) :
    better (candidate p3 n w b) (candidate p3 n w k) =
      candidate p3 n w (if maskTotal p3 n w k < maskTotal p3 n w b then k else b) :=
  (apply_ite (candidate p3 n w) _ k b).symm

/-- The scan of j more masks keeps the running best the first least. -/
theorem foldl_better {k b : Nat} (j : Nat) (h : FirstLeast (maskTotal p3 n w) k b) :
    ∃ b', FirstLeast (maskTotal p3 n w) (k + j) b' ∧
      ((List.range' k j).map (candidate p3 n w)).foldl better (candidate p3 n w b) = candidate p3 n w b' := by
  induction j generalizing k b with
  | zero => exact ⟨b, h, rfl⟩
  | succ j ih =>
    obtain ⟨b', hb', hfold⟩ := ih h.step
    refine ⟨b', by rwa [Nat.add_assoc, Nat.add_comm 1 j] at hb', ?_⟩
    rw [List.range'_succ, List.map_cons, List.foldl_cons, better_candidate, hfold]

/-- MASKSEL selects the candidate of the first least total. -/
theorem selectMask_best :
    ∃ b, FirstLeast (maskTotal p3 n w) 8 b ∧ (selectMask p3 n w).best = candidate p3 n w b := by
  have hzero : FirstLeast (maskTotal p3 n w) 1 0 :=
    ⟨Nat.one_pos, fun m hm => by rw [Nat.lt_one_iff.1 hm], fun m hm => absurd hm (Nat.not_lt_zero m)⟩
  have hlater : [1, 2, 3, 4, 5, 6, 7] = List.range' 1 7 := rfl
  obtain ⟨b, hb, hfold⟩ := foldl_better p3 n w 7 hzero
  exact ⟨b, hb, by rw [selectMask, hlater, hfold]⟩

theorem selectMask_totals : (selectMask p3 n w).totals = (List.range 8).map (maskTotal p3 n w) := rfl

theorem getD_selectMask_totals (m : Fin 8) : (selectMask p3 n w).totals.getD m.val 0 = maskTotal p3 n w m.val := by
  rw [selectMask_totals, List.getD_eq_getElem _ _ (by simp), List.getElem_map, List.getElem_range]

end

theorem selectMask_congr {n : Nat} {w w' : Matrix} (p3 : P3Second) (h : ∀ r < n, ∀ c < n, w r c = w' r c) :
    selectMask p3 n w = selectMask p3 n w' := by
  have hcandidate : candidate p3 n w = candidate p3 n w' := funext fun m => by
    rw [candidate, candidate, scoreOf_congr p3 fun r hr c hc => applyMask_congr m (h r hr c hc)]
  rw [selectMask, selectMask, hcandidate]

/-! ### PENALTY completed (rule R229) -/

theorem exec_penalty_of_ready {s : State} {m : Byte} (hm : m.toNat ≤ 7 ∨ m = 0xFF) (hr : MaskReady s) :
    exec (.penalty m) s = .next (s.setPenalties
      (scoreOf s.params.p3Second (configuredSide s) (penaltyMatrix (configuredSide s) m s.cell))).complete := by
  rw [exec, execPenalty, penaltyEffect_ok_iff.2 ⟨hm, hr, rfl⟩, State.finish_ok]

/-- Settles O46: the commit is the score, which 32 bits hold, and no window changes. -/
theorem penaltyCompletes : Obligations.PenaltyCompletes := by
  refine ⟨fun s m h8 hFE => ?_, fun s m hm hr x hx => ?_⟩
  · have hm : penaltyArgLegal m = false := by
      rw [← Bool.not_eq_true, penaltyArgLegal_iff]
      rintro (h | rfl)
      · omega
      · exact absurd hFE (by decide)
    rw [exec, execPenalty, penaltyEffect, hm]
    rfl
  · have hfits : x.total < 2 ^ 32 := hx ▸ scoreOf_total_lt (configuredSide_le hr) _ _
    obtain ⟨hp1, hp2, hp3, hp4, hp⟩ := setPenalties_holdsScore s hfits
    have hexec : exec (.penalty m) s = .next (s.setPenalties x).complete := by
      rw [exec_penalty_of_ready hm hr, penaltyMatrix, hx]
    have hbuffers : SameBuffers s (s.setPenalties x).complete := by constructor <;> rfl
    exact ⟨_, hexec, rfl, hp1, hp2, hp3, hp4, hp, hbuffers.byteAt rfl⟩

/-! ### The masked MATRIX (rules R230, R232) -/

theorem maskMatrix_sameBuffers (s : State) (n m : Nat) (old : Matrix) :
    SameBuffers s (s.maskMatrix n m old).complete := by
  constructor <;> simp [State.maskMatrix]

/-- MATRIX is the candidate on N × N and stands outside. -/
theorem maskMatrix_cell {s : State} {n : Nat} (hs : s.buffersCanonical) (hn : n ≤ nMax) (m r : Nat) {c : Nat} (hc : c < nMax) :
    (s.maskMatrix n m s.cell).complete.cell r c = if r < n ∧ c < n then applyMask n m s.cell r c else s.cell r c := by
  obtain ⟨-, -, -, -, -, hmatrix⟩ := hs
  exact s.setMatrixN_cell hn _ hmatrix.1 r hc

/-- What masking MATRIX leaves unchanged. -/
theorem maskMatrix_frame (s : State) (n m : Nat) (old : Matrix) :
    s.maskMatrix n m old =
      { s with matrix := (s.maskMatrix n m old).matrix, maskSel := BitVec.ofNat 3 m, maskValid := true } := rfl

theorem exec_maskapply_of_ready {s : State} {m : Byte} (hm : m.toNat ≤ 7) (hr : MaskReady s) :
    exec (.maskapply m) s = .next (s.maskMatrix (configuredSide s) m.toNat s.cell).complete := by
  rw [exec, execMaskapply, maskapplyEffect_ok_iff.2 ⟨hm, hr, rfl⟩, State.finish_ok]

/-- Settles O48: the commit writes the cells of N × N that the mask changes. -/
theorem maskapplyCompletes : Obligations.MaskapplyCompletes := by
  refine ⟨fun s m h7 => ?_, fun s m hs hm hr => ?_⟩
  · have hm : maskIndexLegal m = false := by
      rw [← Bool.not_eq_true, maskIndexLegal_iff]
      omega
    rw [exec, execMaskapply, maskapplyEffect, hm]
    rfl
  · exact ⟨_, exec_maskapply_of_ready hm hr, congrArg State.complete (maskMatrix_frame s _ _ _),
      Nat.mod_eq_of_lt (by omega),
      fun r _ c hc => maskMatrix_cell hs (configuredSide_le hr) m.toNat r hc,
      fun a ha => byteAt_below_matrix (maskMatrix_sameBuffers s _ _ _).windowByte ha⟩

/-! ### MASKSEL completed (rules R230, R231) -/

/-- What MASKSEL's commit leaves unchanged. -/
theorem maskselCommit_frame (s : State) (n : Nat) (old : Matrix) (x : Selection) (t : State)
    (ht : t = maskselCommit s n old x) :
    t = { s with
      matrix := t.matrix, maskSel := t.maskSel, maskValid := true, penMask := t.penMask
      pen1 := t.pen1, pen2 := t.pen2, pen3 := t.pen3, pen4 := t.pen4, penTotal := t.penTotal } := by
  rw [ht]
  simp only [maskselCommit, State.setMaskTotals, State.setPenalties, State.maskMatrix, State.setMatrixN]

theorem getElem_maskselCommit_penMask (s : State) (n : Nat) (old : Matrix) (x : Selection) (m : Fin 8) :
    (maskselCommit s n old x).penMask[m] = BitVec.ofNat 32 (x.totals.getD m.val 0) := by
  simp [maskselCommit]

theorem maskselCommit_cell (s : State) (n : Nat) (old : Matrix) (x : Selection) :
    (maskselCommit s n old x).complete.cell = (s.maskMatrix n x.best.mask old).complete.cell := by
  have hbuffers : SameBuffers (s.maskMatrix n x.best.mask old).complete (maskselCommit s n old x).complete := by
    constructor <;> simp [maskselCommit]
  funext r c
  rw [State.cell, State.cell, hbuffers.matrixCell (by simp [maskselCommit])]

theorem maskselCommit_sameBuffers (s : State) (n : Nat) (old : Matrix) (x : Selection) :
    SameBuffers s (maskselCommit s n old x).complete := by
  constructor <;> simp [maskselCommit, State.maskMatrix]

/-- What MASKSEL finds in MATRIX. -/
def configuredSelection (s : State) : Selection := selectMask s.params.p3Second (configuredSide s) s.cell

/-- The state MASKSEL leaves. -/
def maskselResult (s : State) : State := (maskselCommit s (configuredSide s) s.cell (configuredSelection s)).complete

theorem maskselResult_maskSel (s : State) :
    (maskselResult s).maskSel = BitVec.ofNat 3 (configuredSelection s).best.mask := by
  simp [maskselResult, maskselCommit, State.maskMatrix]

theorem maskselResult_control (s : State) :
    (maskselResult s).done = true ∧ (maskselResult s).fault = s.fault ∧ (maskselResult s).version = s.version ∧
      (maskselResult s).params = s.params := by
  simp [maskselResult, maskselCommit, State.maskMatrix]

/-- The score of candidate m of MATRIX. -/
def candidateScore (s : State) (m : Nat) : Score :=
  scoreOf s.params.p3Second (configuredSide s) (applyMask (configuredSide s) m s.cell)

/-- MASK_SEL is the first index of the least total, and MASKSEL commits that index and its candidate's score. -/
theorem maskselResult_selects (s : State) :
    FirstLeast (fun m => (candidateScore s m).total) 8 (maskselResult s).maskSel.toNat ∧
      (configuredSelection s).best =
        ⟨(maskselResult s).maskSel.toNat, candidateScore s (maskselResult s).maskSel.toNat⟩ := by
  obtain ⟨b, hb, hbest⟩ := selectMask_best s.params.p3Second (configuredSide s) s.cell
  have hsel : (maskselResult s).maskSel.toNat = b := by
    rw [maskselResult_maskSel, configuredSelection, hbest]
    exact Nat.mod_eq_of_lt hb.lt
  rw [hsel]
  exact ⟨hb, hbest⟩

section
variable {s : State} (hr : MaskReady s)
include hr

theorem exec_masksel_of_ready : exec .masksel s = .next (maskselResult s) := by
  rw [exec, execMasksel, maskselEffect_ok_iff.2 ⟨hr, rfl⟩, State.finish_ok, maskselResult, configuredSelection]

theorem candidateScore_total_lt (m : Nat) : (candidateScore s m).total < 2 ^ 32 :=
  scoreOf_total_lt (configuredSide_le hr) _ _

theorem maskselResult_penMask (m : Fin 8) : ((maskselResult s).penMask[m]).toNat = (candidateScore s m.val).total := by
  have hm : (maskselResult s).penMask[m] = BitVec.ofNat 32 (candidateScore s m.val).total := by
    simp only [maskselResult, State.complete_penMask, getElem_maskselCommit_penMask, configuredSelection,
      getD_selectMask_totals]
    rfl
  rw [hm]
  exact Nat.mod_eq_of_lt (candidateScore_total_lt hr m.val)

theorem maskselResult_holdsScore :
    (maskselResult s).HoldsScore (candidateScore s (maskselResult s).maskSel.toNat) := by
  have hscore : (configuredSelection s).best.score = candidateScore s (maskselResult s).maskSel.toNat := by
    rw [(maskselResult_selects s).2]
  rw [← hscore]
  obtain ⟨hp1, hp2, hp3, hp4, hp⟩ := setPenalties_holdsScore s (hscore ▸ candidateScore_total_lt hr _)
  exact ⟨hp1, hp2, hp3, hp4, hp⟩

theorem maskselResult_cell (hs : s.buffersCanonical) (r : Nat) {c : Nat} (hc : c < nMax) :
    (maskselResult s).cell r c =
      if r < configuredSide s ∧ c < configuredSide s then
        applyMask (configuredSide s) (maskselResult s).maskSel.toNat s.cell r c
      else s.cell r c := by
  have hmask : (configuredSelection s).best.mask = (maskselResult s).maskSel.toNat := by
    rw [(maskselResult_selects s).2]
  rw [← hmask, maskselResult, maskselCommit_cell, maskMatrix_cell hs (configuredSide_le hr) _ r hc]

end

/-- Settles O47: the scan selects the first least total, and the commit writes that candidate and its score. -/
theorem maskselCompletes : Obligations.MaskselCompletes := by
  intro s hs hr x hx
  obtain rfl : x = candidateScore s := hx
  obtain ⟨hp1, hp2, hp3, hp4, hp⟩ := maskselResult_holdsScore hr
  obtain ⟨-, hle, hfirst⟩ := (maskselResult_selects s).1
  exact ⟨maskselResult s, exec_masksel_of_ready hr, congrArg State.complete (maskselCommit_frame s _ _ _ _ rfl),
    maskselResult_penMask hr, hle, hfirst, hp1, hp2, hp3, hp4, hp, fun r _ c hc => maskselResult_cell hr hs r hc,
    fun a ha => byteAt_below_matrix (maskselCommit_sameBuffers s _ _ _).windowByte ha⟩

/-! ### Scoring the selected matrix again (rule R234) -/

section
variable {s : State} (hs : s.buffersCanonical) (hr : MaskReady s)
include hs hr

/-- Inside N × N the matrix MASKSEL leaves is the selected candidate. -/
theorem maskselResult_cell_inside {r c : Nat} (hrow : r < configuredSide s) (hcol : c < configuredSide s) :
    (maskselResult s).cell r c = applyMask (configuredSide s) (maskselResult s).maskSel.toNat s.cell r c := by
  rw [maskselResult_cell hr hs r (hcol.trans_le (configuredSide_le hr)), if_pos ⟨hrow, hcol⟩]

theorem maskselResult_score :
    scoreOf s.params.p3Second (configuredSide s) (maskselResult s).cell =
      candidateScore s (maskselResult s).maskSel.toNat :=
  scoreOf_congr _ fun _ hrow _ hcol => maskselResult_cell_inside hs hr hrow hcol

/-- Every state with the matrix and the version that MASKSEL leaves is ready for another command of the mask engine. -/
theorem maskReady_of_maskselResult {q : State} (hcell : q.cell = (maskselResult s).cell) (hversion : q.version = s.version) :
    MaskReady q := by
  have hside : configuredSide q = configuredSide s := configuredSide_congr hversion
  refine ⟨by simpa only [State.versionNat, hversion] using hr.version, fun r c hrow hcol => ?_⟩
  rw [hside] at hrow hcol
  rw [hcell, maskselResult_cell_inside hs hr hrow hcol]
  exact applyMask_scorable (hr.colours r c hrow hcol)

theorem exec_penalty_of_maskselResult {q : State} (hcell : q.cell = (maskselResult s).cell)
    (hversion : q.version = s.version) (hparams : q.params = s.params) :
    exec (.penalty 0xFF) q =
      .next (q.setPenalties (candidateScore s (maskselResult s).maskSel.toNat)).complete := by
  have hside : configuredSide q = configuredSide s := configuredSide_congr hversion
  rw [exec_penalty_of_ready (.inr rfl) (maskReady_of_maskselResult hs hr hcell hversion), penaltyMatrix, if_pos rfl,
    hcell, hside, hparams, maskselResult_score hs hr]

end

/-- MASKSEL's choice depends on N × N, the version and P3_SECOND only. -/
theorem configuredSelection_congr {s s' : State} (hversion : s'.version = s.version)
    (hp3 : s'.params.p3Second = s.params.p3Second)
    (hcell : ∀ r < configuredSide s, ∀ c < configuredSide s, s'.cell r c = s.cell r c) :
    configuredSelection s' = configuredSelection s := by
  have hside : configuredSide s' = configuredSide s := configuredSide_congr hversion
  rw [configuredSelection, configuredSelection, hside, hp3, selectMask_congr _ hcell]

/-- A state that differs in DONE, `seq` and the penalty registers only. -/
theorem rescored_frame {q t : State} {w : Word}
    (hq : q = { t with
      done := false, seq := .exec w 0
      pen1 := q.pen1, pen2 := q.pen2, pen3 := q.pen3, pen4 := q.pen4, penTotal := q.penTotal }) :
    q.cell = t.cell ∧ q.fault = t.fault ∧ q.version = t.version ∧ q.params = t.params :=
  ⟨(congrArg State.cell hq :), (congrArg State.fault hq :), (congrArg State.version hq :), (congrArg State.params hq :)⟩

/-- Settles O50: the matrix MASKSEL leaves scores as its selected candidate, and the choice reads N × N only. -/
theorem selectionIdempotent : Obligations.SelectionIdempotent := by
  intro s hs hr
  obtain ⟨hdone, hfault, hversion, hparams⟩ := maskselResult_control s
  refine ⟨maskselResult s, exec_masksel_of_ready hr, hdone, hfault, fun q hq => ?_,
    fun s' hs' hr' hversion' hp3 hcell => ?_⟩
  · obtain ⟨hqcell, hqfault, hqversion, hqparams⟩ := rescored_frame hq
    have htotal : (BitVec.ofNat 32 (candidateScore s (maskselResult s).maskSel.toNat).total).toNat =
        (candidateScore s (maskselResult s).maskSel.toNat).total := Nat.mod_eq_of_lt (candidateScore_total_lt hr _)
    refine ⟨_, exec_penalty_of_maskselResult hs hr hqcell (hqversion.trans hversion) (hqparams.trans hparams), rfl,
      hqfault, rfl, fun m hm => BitVec.eq_of_toNat_eq ?_, fun m => ?_⟩
    · rw [maskselResult_penMask hr, hm]
      exact htotal
    · rw [maskselResult_penMask hr]
      exact htotal.trans_le ((maskselResult_selects s).1.le m.val m.isLt)
  · have hside : configuredSide s' = configuredSide s := configuredSide_congr hversion'
    have hsel : (maskselResult s').maskSel = (maskselResult s).maskSel := by
      rw [maskselResult_maskSel, maskselResult_maskSel, configuredSelection_congr hversion' hp3 hcell]
    refine ⟨maskselResult s', exec_masksel_of_ready hr', hsel, fun r hrow c hcol => ?_⟩
    rw [maskselResult_cell_inside hs hr hrow hcol, maskselResult_cell_inside hs' hr' (hside ▸ hrow) (hside ▸ hcol), hside,
      hsel, applyMask_congr _ (hcell r hrow c hcol)]

end Sys2Proof.Machine

/-! Reset (70_reset_and_hazards.md, rules R290, R291) and the hazards of a BUSY block (rule R296): what stands after
`rst`, and which host writes the busy rule drops. -/

namespace Sys2Proof.Machine

open Sys2Proof.Config

/-! ### States that reset leaves (rules R290, R291) -/

/-- A 3-bit code taken from a byte and read back as a byte is the byte's bits [2:0] (rule R63). -/
theorem zeroExtend_extractLsb'_three (x : Byte) : (x.extractLsb' 0 3).zeroExtend 8 = x &&& 7 := by
  have hmask : ∀ k < 8, (7 : Byte).getLsbD k = decide (k < 3) := by decide
  apply BitVec.eq_of_getLsbD_eq
  intro k hk
  rw [BitVec.getLsbD_and, hmask k hk]
  simp [hk, Bool.and_comm]

/-- The fields that reset determines are those of `State.reset`; the others are the model's own. -/
def State.IsReset (s : State) : Prop :=
  s = { State.reset with
    inputs := s.inputs, reply := s.reply, draws := s.draws, epoch := s.epoch, params := s.params }

theorem isReset_reset : State.reset.IsReset := rfl

theorem isReset_afterReset (s : State) : s.afterReset.IsReset := rfl

section
variable {s : State} (h : s.IsReset)
include h

theorem State.IsReset.registersReset : s.RegistersReset := by
  rw [h]
  exact {
    ctrl := rfl
    status := by
      simp [State.readReg, State.statusWord, State.busy, State.faulted, Seq.busy, bitAt, State.reset, FaultReg.zero]
    fault := rfl
    cfg := ⟨rfl, rfl, rfl⟩
    lengths := ⟨rfl, rfl⟩
    results := ⟨rfl, rfl, rfl, rfl, rfl⟩
    penalties := ⟨rfl, rfl, rfl, rfl, rfl⟩
    tables := ⟨fun _ => Vector.getElem_replicate _, fun _ => Vector.getElem_replicate _⟩
    idle := rfl
    irq := rfl
    id := rfl }

/-- Every buffer is without a known value, so each of its bytes reads as the draw of its address. -/
theorem State.IsReset.windowByte (w : Window) (i : Nat) :
    s.windowByte w i =
      if w = .matrix then (bufferDraw s.epoch (w.base + i)) &&& 7 else bufferDraw s.epoch (w.base + i) := by
  rw [h]
  cases w with
  | matrix => exact zeroExtend_extractLsb'_three _
  | msg | dcw | stream | rsbuf | rsec => rfl

end

/-! ### The invariants at reset -/

theorem buffersCanonical_reset : State.reset.buffersCanonical :=
  ⟨Memory.nil_wf _, Memory.nil_wf _, Memory.nil_wf _, Memory.nil_wf _, Memory.nil_wf _, Memory.nil_wf _⟩

theorem handshake_reset : State.reset.Handshake where
  doneOrFaulted _ := rfl
  busyNotDone _ := rfl
  busyNotFaulted _ := rfl
  faultWhole _ := rfl
  stageOfRun _ _ hseq := by cases hseq

/-- GEN's zeros are the one exponent of the degree 0 product, padded with zeros (rule R43). -/
theorem generatorCoherent_reset : State.reset.generatorCoherent := by
  refine ⟨Nat.zero_le _, ?_⟩
  change Vector.replicate 31 0 = genFile [0]
  decide

theorem codewordsCurrent_reset : State.reset.codewordsCurrent := fun hvalid => by cases hvalid

theorem streamCurrent_reset : State.reset.streamCurrent := fun hvalid => by cases hvalid

/-! ### Host writes while BUSY (rule R296) -/

/-- A window byte the host may write lies in a writable window, within its backed size. -/
theorem exists_window_of_hostStorable {a : Addr} (ha : hostStorable a) :
    ∃ w i, locate a = .window w i ∧ w.writable = true ∧ i < w.size := by
  obtain ⟨w, i, hl⟩ := exists_window_of_range (a := a) (by omega)
  exact ⟨w, i, hl, (hostStorable_iff_of_window hl).1 ha⟩

theorem State.Handshake.fault_of_busy {s : State} (h : s.Handshake) (hb : s.busy = true) : s.fault = FaultReg.zero :=
  h.faultWhole (h.busyNotFaulted hb)

theorem clearFault_of_fault_zero {s : State} (h : s.fault = FaultReg.zero) : s.clearFault = s := by
  rw [State.clearFault, ← h]

section
variable {s : State} (hb : s.busy = true)
include hb

theorem unlessBusy_of_busy (t : State) : s.unlessBusy t = s.drop := if_pos hb

theorem offerCommand_of_busy (w : Word) : s.offerCommand w = s.drop := by
  rw [State.offerCommand, hb, Bool.true_or, if_pos rfl]

theorem writeReg_of_busy (v : Word) {r : Reg} (hr : r ∈ Reg.busyDropped) : s.writeReg v r = s.drop := by
  cases r with
  | ctrl | cfg | msgLen | rsK => exact unlessBusy_of_busy hb _
  | cmd => exact offerCommand_of_busy hb v
  | _ => simp [Reg.busyDropped] at hr

/-- A write to a writable window is dropped as soon as one of its bytes is backed. -/
theorem writeWindow_of_busy {w : Window} {us : List (Nat × Byte)} (hw : w.writable = true)
    (hus : ∃ u ∈ us, u.1 < w.size) : s.writeWindow w us = s.drop := by
  obtain ⟨u, hu, hsize⟩ := hus
  have hback : u ∈ backedWrites w us := List.mem_filter.2 ⟨hu, decide_eq_true hsize⟩
  have hnonempty : (backedWrites w us).isEmpty = false := List.isEmpty_eq_false_iff.2 (List.ne_nil_of_mem hback)
  rw [State.writeWindow, hw, hnonempty, if_neg (by decide), unlessBusy_of_busy hb]

theorem access_write8_of_busy {a : Addr} (v : Byte) (ha : hostStorable a) :
    s.access (.write8 a v) = s.drop.replyOk 0 := by
  obtain ⟨w, i, hl, hw, hi⟩ := exists_window_of_hostStorable ha
  rw [access_write8_of_window s v hl, writeWindow_of_busy hb hw ⟨(i, v), List.mem_singleton_self _, hi⟩]

theorem access_write32_of_busy {a : Addr} (v : Word) (ha : hostStorable a) (h4 : a.toNat % 4 = 0) :
    s.access (.write32 a v) = s.drop.replyOk 0 := by
  obtain ⟨w, i, hl, hw, hi⟩ := exists_window_of_hostStorable ha
  have hfirst : (i, v.extractLsb' 0 8) ∈ writesFrom i (wordBytes v) := List.mem_cons_self
  rw [access_write32_of_window s v h4 hl, writeWindow_of_busy hb hw ⟨_, hfirst, hi⟩]

end

/-! ### Settled statements -/

/-- Settles O14: a write by its register or by the window of its address; the block is BUSY, so the busy rule drops it,
or the address is one whose writes are ignored in every state. -/
theorem busyWritesDropped : Obligations.BusyWritesDropped := by
  intro s hs hne
  have hb : s.busy = true := busy_of_not_idle hne
  obtain ⟨hreg, hbyte, hword, -⟩ := readOnlyWritesIgnored s
  refine ⟨fun r hr v => ?_, fun a v ha => access_write8_of_busy hb v ha,
    fun a v ha h4 => access_write32_of_busy hb v ha h4, fun v => access_write32_address s .status v,
    fun v => ⟨congrArg FaultReg.code (hs.fault_of_busy hb), ?_⟩, hreg,
    fun a v ha => hbyte a v (by omega) (by omega), fun a v ha h4 => hword a v (by omega) h4 (by omega)⟩
  · rw [access_write32_address, writeReg_of_busy hb v hr]
    rfl
  · calc s.access (.write32 0x000C v)
      _ = s.clearFault.replyOk 0 := access_write32_address s .fault v
      _ = s.replyOk 0 := by rw [clearFault_of_fault_zero (hs.fault_of_busy hb)]

/-- Settles O7: the registers and the draws of a state that reset leaves. -/
theorem resetState : Obligations.ResetState :=
  ⟨isReset_reset.registersReset, fun w i _ => isReset_reset.windowByte w i⟩

/-- Settles O8: the step takes `rst`, with or without a coinciding access, to the same state that reset leaves. -/
theorem resetAbortsCommand : Obligations.ResetAbortsCommand := by
  intro s rest c hinputs
  have hreset := isReset_afterReset { s with inputs := rest }
  have hnone := step_of_input (s := { s with inputs := .reset none :: rest }) rfl
  exact ⟨State.afterReset { s with inputs := rest }, step_of_input hinputs, hreset.registersReset, rfl, rfl, rfl,
    hnone, rfl, rfl, rfl, fun w i _ => hreset.windowByte w i⟩

/-- Settles O60: each of the five invariants at reset. -/
theorem resetMeetsInvariants : Obligations.ResetMeetsInvariants where
  canonical := buffersCanonical_reset
  handshake := handshake_reset
  generator := generatorCoherent_reset
  codewords := codewordsCurrent_reset
  stream := streamCurrent_reset

end Sys2Proof.Machine
